-- ==== Sys2Proof/Word.lean ====
section
/-! DEFINITION. The words of the hub: the byte, and the numbers of its ports, groups, records and blocks. -/

namespace Sys2Proof

/-- A byte, as a master clocks it in or the hub shifts it out (chapter 10: all bytes are unsigned). -/
abbrev Byte := BitVec 8

/-- Port 0 to port 5 (00_scope.md section 1.1). -/
abbrev Port := Fin 6

/-- Group 0 to group 39; group 0 is the station group. -/
abbrev GroupNo := Fin 40

/-- The index of a transit record, 0 to 23. -/
abbrev RecordIndex := Fin 24

/-- The number of a pool block, 0 to 127. -/
abbrev Block := Fin 128

/-- A set of ports, one membership bit for each port (01 section 1.1, note 3). -/
abbrev PortSet := Vector Bool 6

/-- A number as the byte that carries it in a reply. -/
abbrev byteOf (n : Nat) : Byte := BitVec.ofNat 8 n

/-- A yes-or-no value of a reply: 01h for yes, 00h for no (R172). -/
abbrev yesNo (b : Bool) : Byte := if b then 1 else 0

end Sys2Proof
end

