-- ==== Sys2Proof/Config.lean ====
section
/-! DEFINITION. The figures the OW640 fixes (00_scope.md section 1.1). The spec leaves the result of no command
open, so there is no free value here. -/

namespace Sys2Proof.Config

/-- Entries of one delivery queue (R63). -/
abbrev queueLimit : Nat := 16

/-- Entries of one held list (R66). -/
abbrev heldLimit : Nat := 4

/-- Entries of one send list, the send window (R111). -/
abbrev windowLimit : Nat := 4

/-- Bytes of one pool block (chapter 2). -/
abbrev blockBytes : Nat := 32

/-- Bytes of the whole pool: 128 blocks of 32 bytes. -/
abbrev poolBytes : Nat := 4096

/-- The largest quota of OPEN and RESIZE (R11, R23). -/
abbrev quotaLimit : Nat := 112

/-- The limit of the reserved total (R2). -/
abbrev reservedLimit : Nat := 128

/-- The longest deadline in ms (R11, R43). -/
abbrev deadlineLimit : Nat := 250

/-- Where the tick slot's count holds (R98). -/
abbrev tickCountLimit : Nat := 255

/-- The idle-select counter's last value (R155). -/
abbrev idleLimit : Nat := 4

/-- What a pool byte that nothing has written reads as: the spec sets none (R29). DESIGN CHOICE, log entry 11. -/
abbrev unwrittenByte : Byte := 0

end Sys2Proof.Config
end

