-- ==== Sys2Proof/Syntax.lean ====
section
/-! DEFINITION. The commands of the hub: the command codes of chapter 10, the requests a command slot can hold,
and `Instr`, one constructor for each row of spec/opcode_table.json. -/

namespace Sys2Proof

/-- The 24 commands a master can issue (10 section 10.1). -/
inductive CommandCode where
  | nop | status | clearFault | setMask | attach | detach | recall | clearNotices
  | openGroup | close | join | leave | enrol | expel | resize | groupInfo | roster | poolInfo
  | send | fetch | read | ack | nack | take
deriving DecidableEq, Repr

/-- One core request as it stands in a command slot: the command and its parameter bytes (R149). The payload of a
SEND is not here: it stays in the port's staging buffer until the taking (R40). -/
inductive Request where
  | attach
  | detach
  | clearNotices (choice : Byte)
  | openGroup (group quota senderRule joinRule deadline : Byte)
  | close (group : Byte)
  | join (group : Byte)
  | leave (group : Byte)
  | enrol (group port : Byte)
  | expel (group port : Byte)
  | resize (group quota : Byte)
  | groupInfo (group : Byte)
  | roster
  | poolInfo
  | send (group tag flags length deadline : Byte)
  | fetch
  | read (index generation offset count : Byte)
  | ack (index generation code : Byte)
  | nack (index generation code : Byte)
  | take
deriving DecidableEq, Repr

/-- The steps of the hub, one constructor for each row of spec/opcode_table.json. `p` is always the port whose PFE,
command slot or presence slot the step belongs to. -/
inductive Instr where
  /-- HUB_RESET (R143). -/
  | hubReset
  /-- TICK (R98); `prs` tells for each port whether its PRSn line is sampled active, which is "present" (R156). -/
  | tick (prs : PortSet)
  /-- IDLE_SELECT (R155). -/
  | idleSelect (p : Port)
  /-- SELECT (R144 to R146); `sckHigh` is the level of SCKn at the assertion of SELn. -/
  | select (p : Port) (sckHigh : Bool)
  /-- DESELECT (R145, R154). -/
  | deselect (p : Port)
  /-- UNKNOWN_COMMAND (R154): the command byte `b` completes. -/
  | unknownCommand (p : Port) (b : Byte)
  /-- COMMAND_POST (R149): the byte `b` completes a core command. -/
  | commandPost (p : Port) (b : Byte)
  /-- NOP (R157): its command byte completes. -/
  | nop (p : Port)
  /-- STATUS (R163): its command byte completes. -/
  | status (p : Port)
  /-- CLEAR_FAULT (R168): its command byte completes. -/
  | clearFault (p : Port)
  /-- SET_MASK (R158): its parameter byte `mask` completes. -/
  | setMask (p : Port) (mask : Byte)
  /-- RECALL (R152): its command byte completes; `granted` says that the slot's request was granted before that and
  its taking is still in progress. -/
  | recall (p : Port) (granted : Bool)
  /-- ATTACH (R130). -/
  | attach (p : Port)
  /-- DETACH (R132). -/
  | detach (p : Port)
  /-- CLEAR_NOTICES (R166). -/
  | clearNotices (p : Port) (choice : Byte)
  /-- OPEN (R11, R12). -/
  | openGroup (p : Port) (group quota senderRule joinRule deadline : Byte)
  /-- CLOSE (R13, R14). -/
  | close (p : Port) (group : Byte)
  /-- JOIN (R16). -/
  | join (p : Port) (group : Byte)
  /-- LEAVE (R17). -/
  | leave (p : Port) (group : Byte)
  /-- ENROL (R19); `port` is the parameter that names the enrolled port. -/
  | enrol (p : Port) (group port : Byte)
  /-- EXPEL (R21); `port` is the parameter that names the expelled port. -/
  | expel (p : Port) (group port : Byte)
  /-- RESIZE (R23). -/
  | resize (p : Port) (group quota : Byte)
  /-- GROUP_INFO (R26). -/
  | groupInfo (p : Port) (group : Byte)
  /-- ROSTER (R27). -/
  | roster (p : Port)
  /-- POOL_INFO (R38). -/
  | poolInfo (p : Port)
  /-- SEND (R42 to R57). -/
  | send (p : Port) (group tag flags length deadline : Byte)
  /-- FETCH (R68 to R71). -/
  | fetch (p : Port)
  /-- READ (R73, R74). -/
  | read (p : Port) (index generation offset count : Byte)
  /-- ACK (R92, R93). -/
  | ack (p : Port) (index generation code : Byte)
  /-- NACK (R92, R94, R95). -/
  | nack (p : Port) (index generation code : Byte)
  /-- TAKE (R116, R117). -/
  | take (p : Port)
  /-- TICK_TAKING (R99). -/
  | tickTaking
  /-- RECORD_EXPIRY (R100) of record `r`. -/
  | recordExpiry (r : RecordIndex)
  /-- PRESENCE_REPORT (R128). -/
  | presenceReport (p : Port)
  /-- BYTE_COMPLETION (R145): the eighth bit of the byte `b` is sampled on SDIn. -/
  | byteCompletion (p : Port) (b : Byte)
deriving DecidableEq, Repr

end Sys2Proof
end

