-- ==== Sys2Proof/Machine/State.lean ====
section
/-! DEFINITION. The state of the hub as plain data, the reasons a step can stop, and the state after hub reset.
Every field cites the rule of spec/ that names it; INVENTORY.md lists them with their reset values. -/

namespace Sys2Proof.Machine

/-! ## Names -/

/-- The states of a group (01 section 1.2). `opened` is OPEN. -/
inductive GroupState where
  | free | opened | closing
deriving DecidableEq, Repr

/-- Who may SEND to a group (R9). -/
inductive SenderRule where
  | anyMember | anchorOnly
deriving DecidableEq, Repr

/-- Who may add a port to the members (R10). -/
inductive JoinRule where
  | freeJoin | byAnchor
deriving DecidableEq, Repr

/-- The state of a port (07 section 7.1). -/
inductive PortState where
  | absent | detached | active
deriving DecidableEq, Repr

/-- The class of a message (R41). -/
inductive MsgClass where
  | urgent | normal
deriving DecidableEq, Repr

/-- What has become of a message at one target (05 section 5.2): two open outcomes, seven final ones. -/
inductive TargetOutcome where
  | queued | held | fetched | acked | refused | expired | withdrawn | blocked | cancelled
deriving DecidableEq, Repr

/-- The summary of a completion (R104). `partly` is PARTIAL. -/
inductive Verdict where
  | allAcked | partly | stopped | noTargets
deriving DecidableEq, Repr

/-- The result codes (10 section 10.4). -/
inductive ResultCode where
  | ok | notAttached | badParam | badGroup | groupFree | groupBusy | groupClosing | fixedGroup
  | notAnchor | notMember | alreadyMember | portNotActive | senderRule | joinRule | reserveShort | quotaShort
  | quotaBelowUse | windowFull | duplicateTag | empty | holdFull | stale | alreadyAttached | busy
deriving DecidableEq, Repr

/-- The code of the fault latch (R153); `clear` is "none". -/
inductive FaultCode where
  | clear | unknownCommand | shortCommand | truncatedSend | idleSelect
deriving DecidableEq, Repr

/-- The transaction states of a PFE (08 section 8.3). -/
inductive TxnState where
  | idle | cmd | param | payload | await | reply | discard
deriving DecidableEq, Repr

/-- The SPI mode of a transaction (R144). -/
inductive SpiMode where
  | mode0 | mode3
deriving DecidableEq, Repr

/-! ## The core's tables -/

/-- One use of a transit record (R47, R87). -/
structure Handle where
  index      : RecordIndex
  generation : Byte
deriving DecidableEq, Repr

/-- One entry of a delivery queue (04 section 4.1). -/
structure Delivery where
  handle : Handle
  cls    : MsgClass
deriving DecidableEq, Repr

/-- One target of a message with its outcome and reply code (05 section 5.1, R88). -/
structure Target where
  port    : Port
  outcome : TargetOutcome
  code    : Byte
deriving DecidableEq, Repr

/-- The fields a transit record holds only while IN_TRANSIT (05 section 5.1, note 1; R48). -/
structure Message where
  sender        : Port
  tag           : Byte
  group         : GroupNo
  cls           : MsgClass
  confirm       : Bool
  stopOnRefusal : Bool
  loopback      : Bool
  length        : Nat
  chain         : List Block
  remaining     : Nat
  stopped       : Bool
  targets       : List Target
deriving DecidableEq, Repr

/-- A transit record (R86): its generation, and the message it tracks. FREE is `message = none`; the index is the
record's place in the table. -/
structure TransitRecord where
  generation : Byte
  message    : Option Message
deriving DecidableEq, Repr

/-- A completion (06 section 6.3). The target count is the length of `targets`. -/
structure Completion where
  tag     : Byte
  group   : GroupNo
  verdict : Verdict
  targets : List Target
deriving DecidableEq, Repr

/-- One entry of a send list (06 section 6.1): IN_TRANSIT or DONE. -/
inductive SendEntry where
  | inTransit (tag : Byte) (handle : Handle) (confirm : Bool)
  | done (tag : Byte) (completion : Completion)
deriving DecidableEq, Repr

/-- The published summary of a port (09 section 9.1, R159). -/
structure Summary where
  portState : PortState
  urgent    : Nat
  normal    : Nat
  held      : Nat
  inTransit : Nat
  waiting   : Nat
  missed    : Bool
  roster    : Bool
deriving DecidableEq, Repr

/-- What the core keeps for one port: its Port Table entry (R124), delivery queue (R63), held list (R66), send list
with its completion order (R111, R114), missed latch (R81), roster latch (R8) and published summary (R159).
The completion order names the DONE entries by their tags, which are unique in a list (R112). -/
structure CorePort where
  portState : PortState
  queue     : List Delivery
  held      : List Handle
  sends     : List SendEntry
  doneOrder : List Byte
  missed    : Bool
  roster    : Bool
  summary   : Summary
deriving DecidableEq, Repr

/-- An entry of the Group Directory (01 section 1.1). -/
structure Group where
  state           : GroupState
  anchor          : Option Port
  members         : PortSet
  senderRule      : Option SenderRule
  joinRule        : Option JoinRule
  quota           : Nat
  used            : Nat
  inFlight        : Nat
  defaultDeadline : Nat
deriving DecidableEq, Repr

/-! ## The Port Front-End -/

/-- The presence slot (07 section 7.2). `level` is true for present. -/
structure PresenceSlot where
  lostSeen : Bool
  level    : Bool
  pending  : Bool
deriving DecidableEq, Repr

/-- The presence filter (R156): the PRSn level at the previous tick and the last level accepted; true is present. -/
structure PresenceFilter where
  lastSample : Bool
  accepted   : Bool
deriving DecidableEq, Repr

/-- The fault latch (R153). -/
structure FaultLatch where
  code : FaultCode
  more : Bool
deriving DecidableEq, Repr

/-- The attention mask: the enables of the causes D, C, F and N (R158). -/
structure AttentionMask where
  d : Bool
  c : Bool
  f : Bool
  n : Bool
deriving DecidableEq, Repr

/-- The state a PFE holds (08 section 8.1), with its lines. -/
structure Pfe where
  /-- The transaction state (R145). -/
  txn            : TxnState
  /-- The SPI mode captured at select (R144). -/
  mode           : SpiMode
  /-- SELn is asserted. While the port is ignored it can be asserted with `txn` IDLE (R143, R144). -/
  sel            : Bool
  /-- The byte on SDOn, chosen when it began (R144); none is high impedance. -/
  sdo            : Option Byte
  /-- The status byte captured at select (R146). -/
  capturedStatus : Byte
  /-- The command of the present transaction (R145). -/
  command        : Option CommandCode
  /-- Parameter or payload bytes still to come (R145). -/
  toCome         : Nat
  /-- The parameter bytes kept so far, in order (R148). -/
  params         : List Byte
  /-- The staging buffer's bytes, place 0 first (R148). -/
  staging        : List Byte
  /-- The staging buffer's in-use flag (R148). -/
  stagingInUse   : Bool
  /-- The present transaction's SEND marked the staging buffer in use (R148, R154). -/
  stagingMarked  : Bool
  /-- The command slot (R149). -/
  slot           : Option Request
  /-- The presence slot (R127). -/
  presence       : PresenceSlot
  /-- The reply store (R151); empty is `[]`, since a core reply has at least one byte. -/
  replyStore     : List Byte
  /-- The short reply area (R152); empty is `[]`. -/
  shortReply     : List Byte
  /-- The bytes of the reply being shifted that have not begun yet (R147). -/
  replyRest      : List Byte
  /-- The fault latch (R153). -/
  fault          : FaultLatch
  /-- The attention mask (R158). -/
  mask           : AttentionMask
  /-- ATNn is asserted, that is pulled low (R161). -/
  atn            : Bool
  /-- The idle-select counter (R155). -/
  idleCount      : Nat
  /-- The presence filter (R156). -/
  filter         : PresenceFilter
deriving DecidableEq, Repr

/-! ## The hub -/

/-- The contents of the Message Pool: cells of address and byte, addresses strictly rising, no cell holding the byte
an unlisted address reads as. The address of byte o of block b is 32 b + o. -/
abbrev Memory := List Host.Cell

/-- The state of the hub. -/
structure State where
  /-- The six PFEs. -/
  pfes          : Vector Pfe 6
  /-- The core's tables of the six ports. -/
  ports         : Vector CorePort 6
  /-- The Group Directory (R1). -/
  groups        : Vector Group 40
  /-- The reserved total (R2). -/
  reservedTotal : Nat
  /-- The Transit Table (R86). -/
  records       : Vector TransitRecord 24
  /-- The pool's free list, head first (R30). -/
  freeList      : List Block
  /-- The contents of the pool's blocks (R29, R33). -/
  pool          : Memory
  /-- The tick slot's count (R98). -/
  tickCount     : Nat
  /-- The ring position the arbiter examines first (R150): 2 n for command slot n, 2 n + 1 for presence slot n,
  12 for the tick slot. -/
  ringNext      : Fin 13
  /-- The port whose request was granted before its RECALL completed and whose taking is still in progress (R152). -/
  underway      : Option Port
  /-- The commands waiting, first in first out. The model's own. -/
  pending       : List Instr
deriving DecidableEq, Repr

/-- Why a step stops with a fault. Each is SAFE: it stands for a situation of which the spec says that it does not
arise, and the model stops instead of inventing an effect (log entry 12). -/
inductive Fault where
  /-- Raised by SEND when no transit record is FREE; R47: "The core has no result code and no state for a claim that
  finds no FREE record." Safe. -/
  | noFreeRecord
  /-- Raised by SEND when the free list is shorter than the chain; R32: "no state for an allocation that finds too few
  blocks". Safe. -/
  | poolExhausted
  /-- Raised by FETCH and READ when a delivery or a held entry names a FREE record; R63: "No delivery refers to a FREE
  record". Safe. -/
  | danglingHandle
deriving DecidableEq, Repr

/-- Why a command has no meaning. No command of the table is refused. -/
inductive Refusal where
  /-- Raised by `exec` for a command that is not modelled yet: none is left. Safe. -/
  | notModelled (mnemonic : String)
deriving DecidableEq, Repr

/-! ## After hub reset -/

/-- A published summary after hub reset (09 section 9.1). -/
def Summary.reset : Summary :=
  { portState := .absent, urgent := 0, normal := 0, held := 0, inTransit := 0, waiting := 0, missed := false,
    roster := false }

/-- The core's tables of a port after hub reset (R8, R63, R66, R81, R111, R124, R159). -/
def CorePort.reset : CorePort :=
  { portState := .absent, queue := [], held := [], sends := [], doneOrder := [], missed := false, roster := false,
    summary := Summary.reset }

/-- The entry of a group that is FREE (R1, R5). -/
def Group.freed : Group :=
  { state := .free, anchor := none, members := Vector.replicate 6 false, senderRule := none, joinRule := none,
    quota := 0, used := 0, inFlight := 0, defaultDeadline := 0 }

/-- The station group after hub reset (R1). -/
def Group.station : Group :=
  { Group.freed with
    state := .opened, senderRule := some .anyMember, quota := 16, defaultDeadline := 50 }

/-- A PFE after hub reset (08 section 8.1, R143). -/
def Pfe.reset : Pfe :=
  { txn := .idle, mode := .mode0, sel := false, sdo := none, capturedStatus := 0, command := none, toCome := 0,
    params := [], staging := [], stagingInUse := false, stagingMarked := false, slot := none,
    presence := ⟨false, false, false⟩, replyStore := [], shortReply := [], replyRest := [],
    fault := ⟨.clear, false⟩, mask := ⟨false, false, false, false⟩, atn := false, idleCount := 0,
    filter := ⟨false, false⟩ }

/-- The hub right after hub reset (R1, R29, R63, R66, R81, R86, R98, R111, R124, R143, R150, R159), with every SELn
deasserted (log entry 9), no pool byte written (log entry 11) and no command waiting (log entry 7). -/
def State.reset : State :=
  { pfes := Vector.replicate 6 Pfe.reset
    ports := Vector.replicate 6 CorePort.reset
    groups := (Vector.replicate 40 Group.freed).set 0 Group.station
    reservedTotal := 16
    records := Vector.replicate 24 ⟨0, none⟩
    freeList := List.finRange 128
    pool := []
    tickCount := 0
    ringNext := 0
    underway := none
    pending := [] }

end Sys2Proof.Machine
end

