-- ==== Sys2Proof/Machine/Ops.lean ====
section
/-! DEFINITION. The named operations every meaning is built from: one home for reading and updating each table, the
pool's memory, and sets of ports. -/

namespace Sys2Proof.Machine

/-! ## Reading and updating the tables -/

/-- The PFE of port `p`. -/
def State.pfe (s : State) (p : Port) : Pfe := s.pfes[p]

/-- The core's tables of port `p`. -/
def State.port (s : State) (p : Port) : CorePort := s.ports[p]

/-- The Group Directory entry of group `g`. -/
def State.group (s : State) (g : GroupNo) : Group := s.groups[g]

/-- The transit record of index `r`. -/
def State.record (s : State) (r : RecordIndex) : TransitRecord := s.records[r]

/-- The message that record `r` tracks; none while it is FREE. -/
def State.message (s : State) (r : RecordIndex) : Option Message := (s.record r).message

/-- The handle of the present use of record `r` (R87). -/
def State.handle (s : State) (r : RecordIndex) : Handle := ⟨r, (s.record r).generation⟩

/-- Update the PFE of port `p` alone. -/
def State.modPfe (s : State) (p : Port) (f : Pfe → Pfe) : State := { s with pfes := s.pfes.set p (f (s.pfe p)) }

/-- Update the core's tables of port `p` alone. -/
def State.modPort (s : State) (p : Port) (f : CorePort → CorePort) : State :=
  { s with ports := s.ports.set p (f (s.port p)) }

/-- Update the entry of group `g` alone. -/
def State.modGroup (s : State) (g : GroupNo) (f : Group → Group) : State :=
  { s with groups := s.groups.set g (f (s.group g)) }

/-- Update record `r` alone. -/
def State.modRecord (s : State) (r : RecordIndex) (f : TransitRecord → TransitRecord) : State :=
  { s with records := s.records.set r (f (s.record r)) }

/-- Update all six PFEs. -/
def State.mapPfes (s : State) (f : Port → Pfe → Pfe) : State :=
  { s with pfes := Vector.ofFn fun p => f p (s.pfe p) }

/-- Update the core's tables of all six ports. -/
def State.mapPorts (s : State) (f : Port → CorePort → CorePort) : State :=
  { s with ports := Vector.ofFn fun p => f p (s.port p) }

/-- Update all 40 groups. -/
def State.mapGroups (s : State) (f : GroupNo → Group → Group) : State :=
  { s with groups := Vector.ofFn fun g => f g (s.group g) }

/-- Update all 24 records. -/
def State.mapRecords (s : State) (f : RecordIndex → TransitRecord → TransitRecord) : State :=
  { s with records := Vector.ofFn fun r => f r (s.record r) }

/-- Update the message of record `r`; a FREE record stays as it is. -/
def State.modMessage (s : State) (r : RecordIndex) (f : Message → Message) : State :=
  s.modRecord r fun t => { t with message := t.message.map f }

/-- Set the reserved total (R2). -/
def State.setReserved (s : State) (n : Nat) : State := { s with reservedTotal := n }

/-- Set the free list (R30). -/
def State.setFreeList (s : State) (bs : List Block) : State := { s with freeList := bs }

/-- Set the pool's contents (R33). -/
def State.setPool (s : State) (m : Memory) : State := { s with pool := m }

/-- Set the tick slot's count (R98). -/
def State.setTickCount (s : State) (n : Nat) : State := { s with tickCount := n }

/-- Set the arbiter's place and the taking in progress (R150, R152). -/
def State.setArbiter (s : State) (next : Fin 13) (underway : Option Port) : State :=
  { s with ringNext := next, underway := underway }

/-- Set the queue of commands. -/
def State.setPending (s : State) (cs : List Instr) : State := { s with pending := cs }

/-- The ports, groups and records in ascending order. -/
abbrev allPorts : List Port := List.finRange 6
abbrev allGroups : List GroupNo := List.finRange 40
abbrev allRecords : List RecordIndex := List.finRange 24

/-! ## Sets of ports -/

/-- Port `p` is in the set. -/
def PortSet.has (m : PortSet) (p : Port) : Bool := m[p]

/-- The set with port `p` added. -/
def PortSet.insert (m : PortSet) (p : Port) : PortSet := m.set p true

/-- The set with port `p` removed. -/
def PortSet.erase (m : PortSet) (p : Port) : PortSet := m.set p false

/-- The empty set. -/
def PortSet.none : PortSet := Vector.replicate 6 false

/-- The ports of the set in ascending order (01 section 1.1, note 3). -/
def PortSet.ports (m : PortSet) : List Port := allPorts.filter fun p => PortSet.has m p

/-! ## The pool's memory -/

/-- The byte at an address; an address nothing has written reads as `Config.unwrittenByte` (log entry 11). -/
def Memory.read (m : Memory) (a : Nat) : Byte :=
  match m with
  | [] => Config.unwrittenByte
  | (k, b) :: rest => if k = a then b else Memory.read rest a

/-- Write one byte, keeping addresses rising and no cell that reads as an unwritten one. -/
def Memory.write (m : Memory) (a : Nat) (b : Byte) : Memory :=
  match m with
  | [] => if b = Config.unwrittenByte then [] else [(a, b)]
  | (k, v) :: rest =>
    if a < k then
      if b = Config.unwrittenByte then (k, v) :: rest else (a, b) :: (k, v) :: rest
    else if a = k then
      if b = Config.unwrittenByte then rest else (a, b) :: rest
    else (k, v) :: Memory.write rest a b

/-- The canonical form: addresses strictly rising and inside the pool, no cell equal to what an unlisted address
reads as. -/
abbrev Memory.wf (m : Memory) : Prop :=
  m.Pairwise (fun x y => x.1 < y.1) ∧ ∀ c ∈ m, c.1 < Config.poolBytes ∧ c.2 ≠ Config.unwrittenByte

end Sys2Proof.Machine
end

