-- ==== Sys2Proof/Machine/Operands.lean ====
section
/-! DEFINITION. The operands of the commands: what a parameter byte means (10 section 10.2), how the checks of a
command are applied in order (R171), and the codes that stand in replies (10 sections 10.4 and 10.5). -/

namespace Sys2Proof.Machine

/-! ## Parameters -/

/-- The group number is 40 or greater (BAD_GROUP). -/
def badGroup (b : Byte) : Bool := decide (40 ≤ b.toNat)

/-- The group a parameter names. The value is used only where BAD_GROUP has not failed. -/
def groupNo (b : Byte) : GroupNo := ⟨b.toNat % 40, Nat.mod_lt _ (by decide)⟩

/-- The port number is greater than 5 (R19, R21). -/
def badPort (b : Byte) : Bool := decide (5 < b.toNat)

/-- The port a parameter names. The value is used only where the range check has not failed. -/
def portNo (b : Byte) : Port := ⟨b.toNat % 6, Nat.mod_lt _ (by decide)⟩

/-- A quota of 0 or greater than 112 (R11, R23). -/
def badQuota (b : Byte) : Bool := b.toNat == 0 || decide (Config.quotaLimit < b.toNat)

/-- A default deadline of 0 or greater than 250 (R11). -/
def badDefaultDeadline (b : Byte) : Bool := b.toNat == 0 || decide (Config.deadlineLimit < b.toNat)

/-- The sender rule of OPEN: 00h ANY_MEMBER, 01h ANCHOR_ONLY (10 section 10.2). -/
def senderRuleOf (b : Byte) : Option SenderRule :=
  if b = 0x00 then some .anyMember else if b = 0x01 then some .anchorOnly else none

/-- The join rule of OPEN: 00h FREE_JOIN, 01h BY_ANCHOR (10 section 10.2). -/
def joinRuleOf (b : Byte) : Option JoinRule :=
  if b = 0x00 then some .freeJoin else if b = 0x01 then some .byAnchor else none

/-- The bits of the SEND flags byte (R170). -/
def flagConfirm (flags : Byte) : Bool := flags.getLsbD 0
def flagUrgent (flags : Byte) : Bool := flags.getLsbD 1
def flagStopOnRefusal (flags : Byte) : Bool := flags.getLsbD 2
def flagLoopback (flags : Byte) : Bool := flags.getLsbD 3

/-- A byte with one of the undefined bits 4 to 7 set (R170). -/
def highBitsSet (b : Byte) : Bool := decide (16 ≤ b.toNat)

/-- The flags are not accepted by R41: an undefined bit is set, or STOP_ON_REFUSAL without CONFIRM. -/
def badFlags (flags : Byte) : Bool := highBitsSet flags || (flagStopOnRefusal flags && !flagConfirm flags)

/-- The class of a message (R41). -/
def classOf (flags : Byte) : MsgClass := if flagUrgent flags then .urgent else .normal

/-- The choice of CLEAR NOTICES: 01h missed, 02h roster, 03h both; the pair tells which latches it names (R166). -/
def choiceOf (choice : Byte) : Option (Bool × Bool) :=
  if choice = 0x01 then some (true, false)
  else if choice = 0x02 then some (false, true)
  else if choice = 0x03 then some (true, true)
  else none

/-- The mask of SET MASK, D in bit 0, C in bit 1, F in bit 2, N in bit 3; none where an undefined bit is set (R158). -/
def maskOf (b : Byte) : Option AttentionMask :=
  if highBitsSet b then none else some ⟨b.getLsbD 0, b.getLsbD 1, b.getLsbD 2, b.getLsbD 3⟩

/-- The blocks a payload of this length needs: the length divided by 32, rounded up (R31). -/
def blocksFor (length : Nat) : Nat := (length + 31) / 32

/-- The remaining time a SEND starts with: its deadline, or the group's default where that is 0 (R50). -/
def deadlineOf (deadline : Byte) (g : Group) : Nat :=
  if deadline.toNat = 0 then g.defaultDeadline else deadline.toNat

/-- A held entry carries the handle that a command names (R87): index and generation both. -/
def Handle.matches (h : Handle) (index generation : Byte) : Bool :=
  h.index.val == index.toNat && h.generation == generation

/-! ## Checks in order -/

/-- The first check that fails gives the result code (00_scope.md section 1.6); none where all pass. -/
def firstFail : List (Bool × ResultCode) → Option ResultCode
  | [] => none
  | (fails, code) :: rest => if fails then some code else firstFail rest

/-! ## Codes in replies -/

/-- The byte of a result code (10 section 10.4). -/
def ResultCode.byte : ResultCode → Byte
  | .ok => 0x00 | .notAttached => 0x01 | .badParam => 0x02 | .badGroup => 0x03 | .groupFree => 0x04
  | .groupBusy => 0x05 | .groupClosing => 0x06 | .fixedGroup => 0x07 | .notAnchor => 0x08 | .notMember => 0x09
  | .alreadyMember => 0x0A | .portNotActive => 0x0B | .senderRule => 0x0C | .joinRule => 0x0D
  | .reserveShort => 0x0E | .quotaShort => 0x0F | .quotaBelowUse => 0x10 | .windowFull => 0x11
  | .duplicateTag => 0x12 | .empty => 0x13 | .holdFull => 0x14 | .stale => 0x15 | .alreadyAttached => 0x16
  | .busy => 0x17

/-- The state byte of GROUP INFO (R175). -/
def GroupState.byte : GroupState → Byte
  | .free => 0x00 | .opened => 0x01 | .closing => 0x02

/-- The anchor byte of GROUP INFO: FFh for none (R172, R175). -/
def anchorByte : Option Port → Byte
  | some p => byteOf p.val
  | none => 0xFF

/-- The sender rule byte of GROUP INFO (R175). -/
def senderRuleByte : Option SenderRule → Byte
  | some .anyMember => 0x00 | some .anchorOnly => 0x01 | none => 0xFF

/-- The join rule byte of GROUP INFO (R175). -/
def joinRuleByte : Option JoinRule → Byte
  | some .freeJoin => 0x00 | some .byAnchor => 0x01 | none => 0xFF

/-- The outcome byte of TAKE (R174). The open outcomes and FETCHED have no code, because no completion carries them;
they are given 00h, which is no outcome code. -/
def TargetOutcome.byte : TargetOutcome → Byte
  | .acked => 0x01 | .refused => 0x02 | .expired => 0x03 | .withdrawn => 0x04 | .blocked => 0x05
  | .cancelled => 0x06 | .queued => 0x00 | .held => 0x00 | .fetched => 0x00

/-- The summary byte of TAKE (R174). -/
def Verdict.byte : Verdict → Byte
  | .allAcked => 0x00 | .partly => 0x01 | .stopped => 0x02 | .noTargets => 0x03

/-- The fault code byte of STATUS (R176). -/
def FaultCode.byte : FaultCode → Byte
  | .clear => 0x00 | .unknownCommand => 0x01 | .shortCommand => 0x02 | .truncatedSend => 0x03 | .idleSelect => 0x04

/-- The port state byte of STATUS (R176). -/
def PortState.byte : PortState → Byte
  | .absent => 0x00 | .detached => 0x01 | .active => 0x02

/-- The message flags byte of FETCH: confirm in bit 0, URGENT in bit 1 (10 section 10.5). -/
def messageFlagsByte (m : Message) : Byte :=
  (if m.confirm then 0x01 else 0x00) ||| (if m.cls = .urgent then 0x02 else 0x00)

/-- A number in two bytes, high byte first (R173). -/
def twoBytes (n : Nat) : List Byte := [byteOf (n / 256), byteOf n]

end Sys2Proof.Machine
end

