-- ==== Sys2Proof/Machine/Flags.lean ====
section
/-! DEFINITION. Everything that is derived and shown: the published summary (R159), the six summary flags and the
status byte (R146, R176), the attention causes and ATNn (R161), and the STATUS reply (R163). -/

namespace Sys2Proof.Machine

/-! ## The published summary -/

/-- The deliveries of one class in a queue (04 section 4.1, note 3). -/
def countClass (c : MsgClass) (q : List Delivery) : Nat := (q.filter fun d => d.cls == c).length

/-- An entry is IN_TRANSIT. -/
def SendEntry.isInTransit : SendEntry → Bool
  | .inTransit _ _ _ => true
  | .done _ _ => false

/-- An entry is DONE. -/
def SendEntry.isDone : SendEntry → Bool
  | .inTransit _ _ _ => false
  | .done _ _ => true

/-- The summary of a port as its tables stand (09 section 9.1). -/
def summaryOf (c : CorePort) : Summary :=
  { portState := c.portState
    urgent := countClass .urgent c.queue
    normal := countClass .normal c.queue
    held := c.held.length
    inTransit := (c.sends.filter SendEntry.isInTransit).length
    waiting := (c.sends.filter SendEntry.isDone).length
    missed := c.missed
    roster := c.roster }

/-! ## The flags of a summary (09 section 9.1, note 1) -/

def Summary.attached (m : Summary) : Bool := m.portState == .active
def Summary.delivery (m : Summary) : Bool := decide (1 ≤ m.urgent + m.normal)
def Summary.urgentHead (m : Summary) : Bool := decide (1 ≤ m.urgent)
def Summary.completion (m : Summary) : Bool := decide (1 ≤ m.waiting)
def Summary.notice (m : Summary) : Bool := m.missed || m.roster
def Summary.windowFull (m : Summary) : Bool := m.inTransit + m.waiting == Config.windowLimit

/-- The fault latch holds a fault code (R146, R153). -/
def Pfe.faulted (f : Pfe) : Bool := f.fault.code != .clear

/-- The command slot holds a request (R146). -/
def Pfe.pendingFlag (f : Pfe) : Bool := f.slot.isSome

/-- One flag at its bit place. -/
def bitAt (place : Nat) (b : Bool) : Byte := if b then 1#8 <<< place else 0

/-- The status byte: ATTACHED in bit 7, DELIVERY 6, URGENT_HEAD 5, COMPLETION 4, FAULT 3, NOTICE 2, WINDOW_FULL 1,
PENDING 0 (R176). -/
def statusByte (m : Summary) (f : Pfe) : Byte :=
  bitAt 7 m.attached ||| bitAt 6 m.delivery ||| bitAt 5 m.urgentHead ||| bitAt 4 m.completion |||
  bitAt 3 f.faulted ||| bitAt 2 m.notice ||| bitAt 1 m.windowFull ||| bitAt 0 f.pendingFlag

/-- The mask byte: D in bit 0, C in bit 1, F in bit 2, N in bit 3 (R170). -/
def AttentionMask.byte (m : AttentionMask) : Byte :=
  bitAt 0 m.d ||| bitAt 1 m.c ||| bitAt 2 m.f ||| bitAt 3 m.n

/-! ## Attention -/

/-- At least one cause enabled in the mask is true (R161). -/
def attention (m : Summary) (f : Pfe) : Bool :=
  (f.mask.d && m.delivery) || (f.mask.c && m.completion) || (f.mask.f && f.faulted) || (f.mask.n && m.notice)

/-- Drive ATNn by the causes (R161). -/
def Pfe.driveAtn (m : Summary) (f : Pfe) : Pfe := { f with atn := attention m f }

/-! ## The refresh of R150 and R159 -/

/-- Write all six summaries anew; each change of a cause changes ATNn as soon as it is written (R160). -/
def State.refresh (s : State) : State :=
  let t := s.mapPorts fun _ c => { c with summary := summaryOf c }
  t.mapPfes fun p f => f.driveAtn (t.port p).summary

/-! ## STATUS -/

/-- The STATUS reply (10 section 10.5, R163, R176). -/
def statusReply (m : Summary) (f : Pfe) : List Byte :=
  [ ResultCode.ok.byte, m.portState.byte, byteOf m.urgent, byteOf m.normal, byteOf m.held, byteOf m.inTransit,
    byteOf m.waiting, yesNo m.missed, yesNo m.roster, f.fault.code.byte, yesNo f.fault.more, f.mask.byte,
    yesNo f.pendingFlag ]

end Sys2Proof.Machine
end

