-- ==== Sys2Proof/Machine/Arbiter.lean ====
section
/-! DEFINITION. The core's request arbiter (R150) and the frame of every taking: grant, reply, slot, refresh. -/

namespace Sys2Proof.Machine

/-! ## The thirteen slots -/

/-- A requester of the arbiter (R150). -/
inductive Slot where
  | command (p : Port)
  | presence (p : Port)
  | tick
deriving DecidableEq, Repr

/-- The ring in its fixed order (R150). -/
def slotRing : List Slot :=
  (allPorts.flatMap fun p => [Slot.command p, Slot.presence p]) ++ [Slot.tick]

/-- A slot's position in the ring. -/
def Slot.position : Slot → Fin 13
  | .command p => ⟨2 * p.val, by omega⟩
  | .presence p => ⟨2 * p.val + 1, by omega⟩
  | .tick => 12

/-- The PFE holds its command slot off the arbiter: a RECALL command byte has completed and SELn is still asserted
(R152, log entry 15). -/
def Pfe.recalling (f : Pfe) : Bool := f.txn == .reply && f.command == some .recall

/-- The slot requests the arbiter (R98, R127, R150, R152). -/
def State.requests (s : State) : Slot → Bool
  | .command p => (s.pfe p).slot.isSome && !(s.pfe p).recalling
  | .presence p => (s.pfe p).presence.pending
  | .tick => decide (1 ≤ s.tickCount)

/-- The record that the tick taking in progress expires next: the IN_TRANSIT record of lowest index whose remaining
time is 0 (R99, R101; 05 section 5.1, note 2). -/
def State.dueRecord (s : State) : Option RecordIndex :=
  allRecords.find? fun r => (s.message r).any fun m => m.remaining == 0

/-- A tick taking is in progress: it has brought a record to 0 and not yet expired it (log entry 5). -/
def State.midTick (s : State) : Bool := s.dueRecord.isSome

/-- The slot the arbiter grants: none while a tick taking is in progress, since each request is taken whole; the
request whose taking a RECALL found in progress (R152); else the first requesting slot from `ringNext` on (R150). -/
def State.grant (s : State) : Option Slot :=
  if s.midTick then none
  else match s.underway with
    | some p => some (.command p)
    | none => (slotRing.rotateLeft s.ringNext.val).find? s.requests

/-- The arbiter grants port `p`'s command slot, and the request there is `req`. -/
def State.takes (s : State) (p : Port) (req : Request) : Bool :=
  s.grant == some (.command p) && (s.pfe p).slot == some req

/-- The arbiter goes on from the slot that follows the one just granted (R150). -/
def State.granted (s : State) (slot : Slot) : State := s.setArbiter (slot.position + 1) none

/-! ## The taking of a command slot -/

/-- What a core command does to the core's tables: the next tables with the whole reply, or a fault. -/
abbrev CoreResult := Except Fault (State × List Byte)

/-- A refusal: no table is changed, and the reply is the result code alone (R171, R172). -/
def refuse (s : State) (code : ResultCode) : CoreResult := .ok (s, [code.byte])

/-- The reply of a command that passes and reports nothing: OK alone. -/
def okAlone (s : State) : CoreResult := .ok (s, [ResultCode.ok.byte])

/-- Apply a command's checks in order, and its effect where all pass (00_scope.md section 1.6). -/
def judged (s : State) (checks : List (Bool × ResultCode)) (effect : CoreResult) : CoreResult :=
  match firstFail checks with
  | some code => refuse s code
  | none => effect

/-- The core writes the whole reply into the reply store and empties the command slot; a PFE in AWAIT moves to REPLY,
and the reply's first byte goes out in the first byte that begins afterwards (R151). -/
def Pfe.writeReply (reply : List Byte) (f : Pfe) : Pfe :=
  let g := { f with replyStore := reply, slot := none }
  if f.txn = .await then { g with txn := .reply, replyRest := reply } else g

/-- The taking of request `req` from port `p`'s command slot, whole (R150, R151, R159): the command's effect, the
reply, the slot, the arbiter's place, and the refresh. A taking that the arbiter does not grant does not happen
(log entry 2). -/
def takeCommand (p : Port) (req : Request) (effect : State → CoreResult) (s : State) :
    Host.Outcome State Fault Refusal :=
  if s.takes p req then
    match effect s with
    | .ok (t, reply) => .next ((t.modPfe p (Pfe.writeReply reply)).granted (.command p)).refresh
    | .error f => .fault f
  else .next s

/-- The requesting port is not ACTIVE (NOT_ATTACHED). -/
def State.notActive (s : State) (p : Port) : Bool := (s.port p).portState != .active

end Sys2Proof.Machine
end

