-- ==== Sys2Proof/Machine/Pool.lean ====
section
/-! DEFINITION. The Message Pool (chapter 2): where a payload byte lies in a chain, copy-in at commit, copy-out at
FETCH and READ, and the return of a chain. -/

namespace Sys2Proof.Machine

/-- Where payload byte `i` of a chain lies (R31): chain position i / 32, offset i mod 32. None past the chain. -/
def chainAddress (chain : List Block) (i : Nat) : Option Nat :=
  (chain[i / Config.blockBytes]?).map fun b => Config.blockBytes * b.val + i % Config.blockBytes

/-- Write payload bytes into a chain from byte number `i` on, in payload order (R33). -/
def copyIn (chain : List Block) (i : Nat) (payload : List Byte) (pool : Memory) : Memory :=
  match payload with
  | [] => pool
  | b :: rest =>
    copyIn chain (i + 1) rest (match chainAddress chain i with
      | some a => Memory.write pool a b
      | none => pool)

/-- Payload byte `i` of a chain. -/
def chainByte (pool : Memory) (chain : List Block) (i : Nat) : Byte :=
  match chainAddress chain i with
  | some a => Memory.read pool a
  | none => Config.unwrittenByte

/-- The `count` payload bytes of a chain from byte number `offset` on (R35, R36). -/
def copyOut (pool : Memory) (chain : List Block) (offset count : Nat) : List Byte :=
  (List.range count).map fun k => chainByte pool chain (offset + k)

/-- Append a chain at the tail of the free list, chain position 0 first (R34). -/
def State.freeChain (s : State) (chain : List Block) : State := s.setFreeList (s.freeList ++ chain)

end Sys2Proof.Machine
end

