-- ==== Sys2Proof/Machine/Settle.lean ====
section
/-! DEFINITION. What takings share: the transitions of a group (R4, R5), the outcome of one target, the close of a
record (R91, R102 to R105) and withdrawal (R76). `retiring` is the port being retired in the taking, if any. -/

namespace Sys2Proof.Machine

/-! ## Roster notices and group states -/

/-- Set the roster latch of every port of a set but one (R8). -/
def State.notifyRoster (s : State) (members : PortSet) (but : Option Port) : State :=
  s.mapPorts fun p c => if PortSet.has members p && but != some p then { c with roster := true } else c

/-- The FREE transition of group `g` (R5). `closer` is the port whose own CLOSE is the request being taken. -/
def State.freeGroup (s : State) (g : GroupNo) (closer : Option Port) : State :=
  (((s.setReserved (s.reservedTotal - (s.group g).quota)).notifyRoster (s.group g).members closer).modGroup g
    fun _ => Group.freed)

/-- The check of R5: a CLOSING group with in-flight 0 becomes FREE. -/
def State.freeIfDone (s : State) (g : GroupNo) (closer : Option Port) : State :=
  if (s.group g).state = .closing ∧ (s.group g).inFlight = 0 then s.freeGroup g closer else s

/-- A group enters CLOSING (R4): every member but `cause` has its roster latch set, and the check of R5 follows. -/
def State.enterClosing (s : State) (g : GroupNo) (cause : Port) (closer : Option Port) : State :=
  ((s.modGroup g fun e => { e with state := .closing }).notifyRoster (s.group g).members (some cause)).freeIfDone
    g closer

/-! ## One target -/

/-- An outcome that is still open (05 section 5.2). -/
def TargetOutcome.isOpen (o : TargetOutcome) : Bool := o == .queued || o == .held

/-- The outcome of port `p` in a message; none where it is no target. -/
def Message.outcomeOf (m : Message) (p : Port) : Option TargetOutcome :=
  (m.targets.find? fun t => t.port == p).map Target.outcome

/-- A target of the message is still QUEUED or HELD (R91). -/
def Message.hasOpenTarget (m : Message) : Bool := m.targets.any fun t => t.outcome.isOpen

/-- The message with the outcome and reply code of target `p` set; the ports and their order stay (R88). -/
def Message.setTarget (m : Message) (p : Port) (o : TargetOutcome) (code : Byte) : Message :=
  { m with targets := m.targets.map fun t => if t.port = p then { t with outcome := o, code := code } else t }

/-- Set the outcome and reply code of target `p` of record `r`. -/
def State.setTarget (s : State) (r : RecordIndex) (p : Port) (o : TargetOutcome) (code : Byte) : State :=
  s.modMessage r fun m => m.setTarget p o code

/-- Remove record `r`'s delivery from port `p`'s queue; the others keep their order (R64). -/
def State.dropDelivery (s : State) (r : RecordIndex) (p : Port) : State :=
  s.modPort p fun c => { c with queue := c.queue.filter fun d => d.handle != s.handle r }

/-- Remove record `r`'s handle from port `p`'s held list; the others keep their order (R67). -/
def State.dropHeld (s : State) (r : RecordIndex) (p : Port) : State :=
  s.modPort p fun c => { c with held := c.held.filter fun h => h != s.handle r }

/-- Make an open target final: its delivery or held entry goes, its outcome and code are set. A target that is
already final, or is none, stays as it is (R76, R95, R100). -/
def State.settle (s : State) (r : RecordIndex) (p : Port) (o : TargetOutcome) (code : Byte) : State :=
  match (s.message r).bind fun m => m.outcomeOf p with
  | some .queued => (s.dropDelivery r p).setTarget r p o code
  | some .held => (s.dropHeld r p).setTarget r p o code
  | _ => s

/-! ## The close of a record -/

/-- The summary of a message at its close, by the tests of R104 in order. -/
def verdictOf (m : Message) : Verdict :=
  if m.targets = [] then .noTargets
  else if m.stopped then .stopped
  else if m.targets.all fun t => t.outcome == .acked then .allAcked
  else .partly

/-- The completion built from a message at its close (R104). -/
def completionOf (m : Message) : Completion :=
  { tag := m.tag, group := m.group, verdict := verdictOf m, targets := m.targets }

/-- An entry is the IN_TRANSIT entry of a handle. -/
def SendEntry.carries (e : SendEntry) (h : Handle) : Bool :=
  match e with
  | .inTransit _ k _ => k == h
  | .done _ _ => false

/-- An entry's tag. -/
def SendEntry.tag : SendEntry → Byte
  | .inTransit t _ _ => t
  | .done t _ => t

/-- The entry of handle `h` becomes DONE, keeps its place and its tag, and stands last in completion order (R113,
R114). -/
def CorePort.complete (c : CorePort) (h : Handle) (k : Completion) : CorePort :=
  { c with
    sends := c.sends.map fun e => if e.carries h then .done e.tag k else e
    doneOrder := c.doneOrder ++ (c.sends.filter fun e => e.carries h).map SendEntry.tag }

/-- The entry of handle `h` is removed; the others keep their order (R113). -/
def CorePort.dropEntry (c : CorePort) (h : Handle) : CorePort :=
  { c with sends := c.sends.filter fun e => !e.carries h }

/-- Step 1 of the close: the sender's send-list entry (R103). -/
def State.closeEntry (s : State) (retiring : Option Port) (r : RecordIndex) (m : Message) : State :=
  if retiring = some m.sender then s
  else if m.confirm then s.modPort m.sender fun c => c.complete (s.handle r) (completionOf m)
  else s.modPort m.sender fun c => c.dropEntry (s.handle r)

/-- Step 3 of the close: the group's counts, and the FREE transition where it follows (R103). -/
def State.releaseCharge (s : State) (m : Message) : State :=
  (s.modGroup m.group fun e =>
    { e with used := e.used - m.chain.length, inFlight := e.inFlight - 1 }).freeIfDone m.group none

/-- Step 4 of the close: the record becomes FREE and its generation advances by 1, from 255 to 0 (R87, R103). -/
def TransitRecord.retire (t : TransitRecord) : TransitRecord := { generation := t.generation + 1, message := none }

/-- The close of record `r`, in the four steps of R103. -/
def State.closeRecord (s : State) (retiring : Option Port) (r : RecordIndex) : State :=
  match s.message r with
  | none => s
  | some m =>
    ((((s.closeEntry retiring r m).freeChain m.chain).releaseCharge m).modRecord r TransitRecord.retire)

/-- The check of R91: a record with no open target closes. -/
def State.closeIfSettled (s : State) (retiring : Option Port) (r : RecordIndex) : State :=
  match s.message r with
  | none => s
  | some m => if m.hasOpenTarget then s else s.closeRecord retiring r

/-! ## Withdrawal -/

/-- Port `p` is an open target of record `r`. -/
def State.isOpenTarget (s : State) (r : RecordIndex) (p : Port) : Bool :=
  (s.message r).any fun m => (m.outcomeOf p).any TargetOutcome.isOpen

/-- Withdraw target `p` of record `r` (R76). -/
def State.withdraw (s : State) (retiring : Option Port) (r : RecordIndex) (p : Port) : State :=
  if s.isOpenTarget r p then (s.settle r p .withdrawn 0).closeIfSettled retiring r else s

/-- Withdraw port `p` as target of each record of a list, in the list's order. -/
def State.withdrawAll (s : State) (retiring : Option Port) (p : Port) (rs : List RecordIndex) : State :=
  rs.foldl (fun t r => t.withdraw retiring r p) s

/-- The message of record `r` was sent to group `g`. -/
def State.isOfGroup (s : State) (g : GroupNo) (r : RecordIndex) : Bool := (s.message r).any fun m => m.group == g

/-- Withdraw port `p`'s QUEUED deliveries of group `g`, from the head of the queue to the tail, as they stand now
(R78). -/
def State.withdrawGroup (s : State) (p : Port) (g : GroupNo) : State :=
  s.withdrawAll none p (((s.port p).queue.map fun d => d.handle.index).filter (s.isOfGroup g))

end Sys2Proof.Machine
end

