-- ==== Sys2Proof/Machine/Completions.lean ====
section
/-! DEFINITION. TAKE (R116, R117), and the two commands that read or clear a port's small state: POOL_INFO (R38) and
CLEAR_NOTICES (R166). -/

namespace Sys2Proof.Machine

/-! ## TAKE -/

/-- The completion of the DONE entry with a tag. -/
def CorePort.doneWith (c : CorePort) (tag : Byte) : Option Completion :=
  c.sends.findSome? fun e => match e with
    | .inTransit _ _ _ => none
    | .done t k => if t = tag then some k else none

/-- The DONE entry that stands first in completion order, as its tag and completion (R114). -/
def CorePort.firstDone (c : CorePort) : Option (Byte × Completion) :=
  c.doneOrder.findSome? fun t => (c.doneWith t).map fun k => (t, k)

/-- The DONE entry with this tag leaves the list and the completion order (R117). -/
def CorePort.dropDone (c : CorePort) (tag : Byte) : CorePort :=
  { c with
    sends := c.sends.filter fun e => !(e.isDone && e.tag == tag)
    doneOrder := c.doneOrder.filter fun t => t != tag }

/-- The checks of R116. -/
def takeChecks (p : Port) (s : State) : List (Bool × ResultCode) :=
  [ (s.notActive p, .notAttached), ((s.port p).firstDone.isNone, .empty) ]

/-- The TAKE reply (10 section 10.5, R117, R174). -/
def takeReply (k : Completion) : List Byte :=
  [ResultCode.ok.byte, k.tag, byteOf k.group.val, k.verdict.byte, byteOf k.targets.length] ++
    k.targets.flatMap fun t => [byteOf t.port.val, t.outcome.byte, t.code]

/-- The effect of a TAKE that passes (R117). -/
def takeEffect (p : Port) (s : State) : CoreResult :=
  match (s.port p).firstDone with
  | none => refuse s .empty
  | some (tag, k) => .ok (s.modPort p fun c => c.dropDone tag, takeReply k)

/-- TAKE (R116, R117). -/
def execTake (p : Port) : State → Host.Outcome State Fault Refusal :=
  takeCommand p .take fun s => judged s (takeChecks p s) (takeEffect p s)

/-! ## POOL_INFO -/

/-- The POOL INFO reply: free blocks, reserved total, headroom (R38, R175). -/
def poolInfoReply (s : State) : List Byte :=
  [ ResultCode.ok.byte, byteOf s.freeList.length, byteOf s.reservedTotal,
    byteOf (Config.reservedLimit - s.reservedTotal) ]

/-- POOL_INFO (R38). -/
def execPoolInfo (p : Port) : State → Host.Outcome State Fault Refusal :=
  takeCommand p .poolInfo fun s => judged s [(s.notActive p, .notAttached)] (.ok (s, poolInfoReply s))

/-! ## CLEAR_NOTICES -/

/-- The checks of R166. -/
def clearNoticesChecks (p : Port) (choice : Byte) (s : State) : List (Bool × ResultCode) :=
  [ (s.notActive p, .notAttached), ((choiceOf choice).isNone, .badParam) ]

/-- The effect of a CLEAR NOTICES that passes: the chosen latches are cleared, the other stays (R166). -/
def clearNoticesEffect (p : Port) (choice : Byte) (s : State) : State :=
  match choiceOf choice with
  | none => s
  | some (missed, roster) =>
    s.modPort p fun c => { c with missed := c.missed && !missed, roster := c.roster && !roster }

/-- CLEAR_NOTICES (R166). -/
def execClearNotices (p : Port) (choice : Byte) : State → Host.Outcome State Fault Refusal :=
  takeCommand p (.clearNotices choice) fun s =>
    judged s (clearNoticesChecks p choice s) (okAlone (clearNoticesEffect p choice s))

end Sys2Proof.Machine
end

