-- ==== Sys2Proof/Decode.lean ====
section
/-! DEFINITION. Decoding: the command code table of chapter 10 that a PFE applies to a command byte (R169), the
parameter bytes of a command as a request, and the host's `decodeTableWord`. -/

namespace Sys2Proof

/-- One row of the command code table (10 section 10.1). -/
structure CommandRow where
  code    : Byte
  command : CommandCode
  core    : Bool
  params  : Nat
deriving DecidableEq, Repr

/-- The command code table of 10 section 10.1, row by row. -/
def commandTable : List CommandRow :=
  [ ⟨0x00, .nop, false, 0⟩, ⟨0x01, .status, false, 0⟩, ⟨0x02, .clearFault, false, 0⟩, ⟨0x03, .setMask, false, 1⟩,
    ⟨0x04, .attach, true, 0⟩, ⟨0x05, .detach, true, 0⟩, ⟨0x06, .recall, false, 0⟩, ⟨0x07, .clearNotices, true, 1⟩,
    ⟨0x10, .openGroup, true, 5⟩, ⟨0x11, .close, true, 1⟩, ⟨0x12, .join, true, 1⟩, ⟨0x13, .leave, true, 1⟩,
    ⟨0x14, .enrol, true, 2⟩, ⟨0x15, .expel, true, 2⟩, ⟨0x16, .resize, true, 2⟩, ⟨0x17, .groupInfo, true, 1⟩,
    ⟨0x18, .roster, true, 0⟩, ⟨0x19, .poolInfo, true, 0⟩, ⟨0x20, .send, true, 5⟩, ⟨0x21, .fetch, true, 0⟩,
    ⟨0x22, .read, true, 4⟩, ⟨0x23, .ack, true, 3⟩, ⟨0x24, .nack, true, 3⟩, ⟨0x25, .take, true, 0⟩ ]

/-- The row of the table that a command byte selects; none for an undefined code (R169). -/
def decodeCommand (b : Byte) : Option CommandRow := commandTable.find? fun row => row.code == b

/-- The request that a core command with these parameter bytes posts (R149). None for a local command and for a
number of bytes the command does not have; neither arises, since the PFE counts the bytes by the table (R148). -/
def requestOf : CommandCode → List Byte → Option Request
  | .attach, [] => some .attach
  | .detach, [] => some .detach
  | .clearNotices, [choice] => some (.clearNotices choice)
  | .openGroup, [g, q, sr, jr, dl] => some (.openGroup g q sr jr dl)
  | .close, [g] => some (.close g)
  | .join, [g] => some (.join g)
  | .leave, [g] => some (.leave g)
  | .enrol, [g, q] => some (.enrol g q)
  | .expel, [g, q] => some (.expel g q)
  | .resize, [g, q] => some (.resize g q)
  | .groupInfo, [g] => some (.groupInfo g)
  | .roster, [] => some .roster
  | .poolInfo, [] => some .poolInfo
  | .send, [g, t, f, l, d] => some (.send g t f l d)
  | .fetch, [] => some .fetch
  | .read, [i, n, o, c] => some (.read i n o c)
  | .ack, [i, n, c] => some (.ack i n c)
  | .nack, [i, n, c] => some (.nack i n c)
  | .take, [] => some .take
  | _, _ => none

/-- The command a word spells by the bits of spec/opcode_table.json: no row of the table gives bits, so none. -/
def decodeTableWord (_nbits _w : Nat) : Option Instr := none

end Sys2Proof
end

