-- ==== Sys2Proof/Machine/Frontend.lean ====
section
/-! DEFINITION. The Port Front-End (chapter 8) and its local commands: select, deselect, the completion of a byte,
posting, framing faults, the tick as a PFE sees it; and the meanings of SELECT, DESELECT, BYTE_COMPLETION,
UNKNOWN_COMMAND, COMMAND_POST, IDLE_SELECT, NOP, STATUS, CLEAR_FAULT, SET_MASK and RECALL. -/

namespace Sys2Proof.Machine

/-! ## Faults -/

/-- Record a framing fault in the latch: the first one as the code, a further one as MORE (R153). -/
def Pfe.recordFault (code : FaultCode) (f : Pfe) : Pfe :=
  { f with fault := if f.fault.code = .clear then ⟨code, f.fault.more⟩ else ⟨f.fault.code, true⟩ }

/-- Release the staging buffer if this transaction's SEND had marked it in use (R148, R154). The released bytes stay
in the buffer (log entry 14). -/
def Pfe.releaseIfMarked (f : Pfe) : Pfe :=
  if f.stagingMarked then { f with stagingInUse := false, stagingMarked := false } else f

/-- Discard the command byte, the parameters and the count of bytes to come of the present transaction. -/
def Pfe.dropCommand (f : Pfe) : Pfe := { f with command := none, toCome := 0, params := [] }

/-- The transaction is in one of the states in which the idle-select counter counts (R155). -/
def Pfe.receiving (f : Pfe) : Bool := f.txn == .cmd || f.txn == .param || f.txn == .payload

/-- The idle-select counter has reached 4 while a command is being received, and the fault is not recorded yet. -/
def Pfe.idleDue (f : Pfe) : Bool := f.receiving && f.idleCount == Config.idleLimit

/-- The IDLE_SELECT fault, where it is due (R155). -/
def Pfe.idleFault (f : Pfe) : Pfe :=
  if f.idleDue then { (f.recordFault .idleSelect).releaseIfMarked.dropCommand with txn := .discard } else f

/-! ## Select and deselect -/

/-- The assertion of SELn (R144 to R146). It is ignored while the port is ABSENT (R125), and an assertion of a line
that is asserted already is none. -/
def Pfe.select (m : Summary) (sckHigh : Bool) (f : Pfe) : Pfe :=
  if f.sel then f
  else if m.portState = .absent then { f with sel := true }
  else
    { f.dropCommand with
      sel := true
      txn := .cmd
      mode := if sckHigh then .mode3 else .mode0
      capturedStatus := statusByte m f
      sdo := some (statusByte m f)
      idleCount := 0
      stagingMarked := false
      shortReply := []
      replyRest := [] }

/-- The fault of a deselect that ends a transaction in its present state (R154). -/
def Pfe.deselectFault (f : Pfe) : Pfe :=
  match f.txn with
  | .param => (f.recordFault .shortCommand).releaseIfMarked
  | .payload => (f.recordFault .truncatedSend).releaseIfMarked
  | .idle => f
  | .cmd => f
  | .await => f
  | .reply => f
  | .discard => f

/-- The deassertion of SELn: IDLE from every state; a posted request, the reply store and the fault latch stay
(R145, R152). -/
def Pfe.deselect (f : Pfe) : Pfe :=
  if f.sel then
    { f.deselectFault.dropCommand with
      sel := false, txn := .idle, sdo := none, stagingMarked := false, shortReply := [], replyRest := [] }
  else f

/-! ## Replies and posting -/

/-- A local reply, or a BUSY answer, built in the short reply area; the transaction enters REPLY (R145, R152). -/
def Pfe.replyShort (reply : List Byte) (f : Pfe) : Pfe :=
  { f with txn := .reply, shortReply := reply, replyRest := reply }

/-- A core command is complete with the slot empty: the request is posted and the PFE enters AWAIT (R149). -/
def Pfe.post (req : Request) (f : Pfe) : Pfe := { f with txn := .await, slot := some req, stagingMarked := false }

/-- A core command is complete and not posted: BUSY, and a staging buffer it had filled is released (R148, R149). -/
def Pfe.answerBusy (f : Pfe) : Pfe := f.releaseIfMarked.replyShort [ResultCode.busy.byte]

/-- The completion of a core command (R149): posted into an empty slot, else BUSY. A SEND that found the staging
buffer in use at its command byte is answered BUSY even with the slot empty (R148). -/
def Pfe.completeCore (c : CommandCode) (f : Pfe) : Pfe :=
  match requestOf c f.params with
  | some req => if f.slot.isSome || (c == .send && !f.stagingMarked) then f.answerBusy else f.post req
  | none => f

/-- The completion of SET MASK (R158). -/
def Pfe.completeSetMask (f : Pfe) : Pfe :=
  match maskOf (f.params.headD 0) with
  | some mask => { f with mask := mask }.replyShort [ResultCode.ok.byte]
  | none => f.replyShort [ResultCode.badParam.byte]

/-- The completion of RECALL (R152): the reply store, shifted directly, or EMPTY from the short reply area. -/
def Pfe.completeRecall (f : Pfe) : Pfe :=
  if f.replyStore = [] then f.replyShort [ResultCode.empty.byte]
  else { f with txn := .reply, replyRest := f.replyStore }

/-- The completion of CLEAR FAULT (R168). -/
def Pfe.completeClearFault (f : Pfe) : Pfe := { f with fault := ⟨.clear, false⟩ }.replyShort [ResultCode.ok.byte]

/-- The completion of a command (R145): a local one is answered by the PFE, a core one posted. -/
def Pfe.complete (m : Summary) (c : CommandCode) (f : Pfe) : Pfe :=
  match c with
  | .nop => f.replyShort [ResultCode.ok.byte]
  | .status => f.replyShort (statusReply m f)
  | .clearFault => f.completeClearFault
  | .setMask => f.completeSetMask
  | .recall => f.completeRecall
  | .attach => f.completeCore .attach
  | .detach => f.completeCore .detach
  | .clearNotices => f.completeCore .clearNotices
  | .openGroup => f.completeCore .openGroup
  | .close => f.completeCore .close
  | .join => f.completeCore .join
  | .leave => f.completeCore .leave
  | .enrol => f.completeCore .enrol
  | .expel => f.completeCore .expel
  | .resize => f.completeCore .resize
  | .groupInfo => f.completeCore .groupInfo
  | .roster => f.completeCore .roster
  | .poolInfo => f.completeCore .poolInfo
  | .send => f.completeCore .send
  | .fetch => f.completeCore .fetch
  | .read => f.completeCore .read
  | .ack => f.completeCore .ack
  | .nack => f.completeCore .nack
  | .take => f.completeCore .take

/-! ## The completion of a byte -/

/-- A SEND command byte marks the staging buffer in use where it is not, and will overwrite it from place 0 (R148). -/
def Pfe.markStaging (c : CommandCode) (f : Pfe) : Pfe :=
  if c = .send ∧ f.stagingInUse = false then { f with stagingInUse := true, stagingMarked := true, staging := [] }
  else f

/-- The completion of the command byte (R145, R169). -/
def Pfe.commandByte (m : Summary) (b : Byte) (f : Pfe) : Pfe :=
  match decodeCommand b with
  | none => { f.recordFault .unknownCommand with txn := .discard }
  | some row =>
    let g := { f with command := some row.command, params := [] }.markStaging row.command
    if row.params = 0 then g.complete m row.command else { g with txn := .param, toCome := row.params }

/-- The payload bytes that follow the parameters of a command: the length, the fourth parameter of SEND counted from
0 as place 3 (R148); none for every other command. -/
def payloadBytes (c : CommandCode) (params : List Byte) : Nat :=
  if c = .send then (params.getD 3 0).toNat else 0

/-- The completion of a parameter byte (R145, R148). -/
def Pfe.parameterByte (m : Summary) (b : Byte) (f : Pfe) : Pfe :=
  match f.command with
  | none => f
  | some c =>
    let g := { f with params := f.params ++ [b], toCome := f.toCome - 1 }
    if 1 ≤ g.toCome then g
    else if 1 ≤ payloadBytes c g.params then { g with txn := .payload, toCome := payloadBytes c g.params }
    else g.complete m c

/-- The completion of a payload byte: staged where this SEND marked the buffer, counted in any case (R145, R148). -/
def Pfe.payloadByte (m : Summary) (b : Byte) (f : Pfe) : Pfe :=
  match f.command with
  | none => f
  | some c =>
    let g := { f with staging := if f.stagingMarked then f.staging ++ [b] else f.staging, toCome := f.toCome - 1 }
    if 1 ≤ g.toCome then g else g.complete m c

/-- The next byte on SDOn, chosen as it begins, by the state reached (R144, R147). -/
def Pfe.nextOut (f : Pfe) : Pfe :=
  match f.txn with
  | .idle => f
  | .cmd => f
  | .param => { f with sdo := some 0x00 }
  | .payload => { f with sdo := some 0x00 }
  | .await => { f with sdo := some 0xFF }
  | .discard => { f with sdo := some 0xFF }
  | .reply => { f with sdo := some (f.replyRest.headD 0x00), replyRest := f.replyRest.tail }

/-- The state change a completed byte makes (R145). In AWAIT, REPLY and DISCARD completed bytes change no state, and a
port that is not selected, or whose select is ignored, completes no byte. -/
def Pfe.acceptByte (m : Summary) (b : Byte) (f : Pfe) : Pfe :=
  match f.txn with
  | .idle => f
  | .cmd => f.commandByte m b
  | .param => f.parameterByte m b
  | .payload => f.payloadByte m b
  | .await => f
  | .reply => f
  | .discard => f

/-- The completion of byte `b` (R145): an IDLE_SELECT fault that is due comes first (R155), the idle-select counter is
set to 0, the state changes, and the next byte begins on SDOn. -/
def Pfe.byte (m : Summary) (b : Byte) (f : Pfe) : Pfe :=
  let g := f.idleFault
  if g.txn = .idle then g else ({ g with idleCount := 0 }.acceptByte m b).nextOut

/-! ## Events of a PFE -/

/-- An event of port `p`'s PFE: it acts on the PFE alone, reading the published summary, and ATNn follows (R161). -/
def pfeEvent (p : Port) (act : Summary → Pfe → Pfe) (s : State) : State :=
  s.modPfe p fun f => (act (s.port p).summary f).driveAtn (s.port p).summary

/-- A byte completes at port `p`. -/
def byteEvent (p : Port) (b : Byte) (s : State) : State := pfeEvent p (fun m f => f.byte m b) s

/-- A byte completes at port `p`, in the case that a row of the table names; where the PFE is not in that case the
event does not happen (log entries 2 and 3). -/
def byteEventIf (p : Port) (case : Pfe → Bool) (b : Byte) (s : State) : State :=
  if case (s.pfe p).idleFault then byteEvent p b s else s

/-- A command byte is to come. -/
def Pfe.atCommand (f : Pfe) : Bool := f.txn == .cmd

/-- Byte `b` completes a core command (R145, R149). -/
def Pfe.completesCore (b : Byte) (f : Pfe) : Bool :=
  match f.txn with
  | .cmd => (decodeCommand b).any fun row => row.core && row.params == 0
  | .param => f.command.any fun c => c != .setMask && f.toCome == 1 && payloadBytes c (f.params ++ [b]) == 0
  | .payload => f.toCome == 1
  | .idle => false
  | .await => false
  | .reply => false
  | .discard => false

/-- The parameter of SET MASK is to come. -/
def Pfe.atMask (f : Pfe) : Bool := f.txn == .param && f.command == some .setMask && f.toCome == 1

/-! ## Meanings -/

/-- SELECT (R144, R145, R146). -/
def execSelect (p : Port) (sckHigh : Bool) (s : State) : Host.Outcome State Fault Refusal :=
  .next (pfeEvent p (fun m f => f.select m sckHigh) s)

/-- DESELECT (R145, R154); an IDLE_SELECT fault that is due comes first (R155). -/
def execDeselect (p : Port) (s : State) : Host.Outcome State Fault Refusal :=
  .next (pfeEvent p (fun _ f => f.idleFault.deselect) s)

/-- BYTE_COMPLETION (R145, R147, R148). -/
def execByteCompletion (p : Port) (b : Byte) (s : State) : Host.Outcome State Fault Refusal :=
  .next (byteEvent p b s)

/-- UNKNOWN_COMMAND (R154, R169): a command byte that is no defined code completes. -/
def execUnknownCommand (p : Port) (b : Byte) (s : State) : Host.Outcome State Fault Refusal :=
  .next (byteEventIf p (fun f => f.atCommand && (decodeCommand b).isNone) b s)

/-- COMMAND_POST (R148, R149): the byte that completes a core command completes. -/
def execCommandPost (p : Port) (b : Byte) (s : State) : Host.Outcome State Fault Refusal :=
  .next (byteEventIf p (Pfe.completesCore b) b s)

/-- IDLE_SELECT (R155): the idle-select counter has reached 4. -/
def execIdleSelect (p : Port) (s : State) : Host.Outcome State Fault Refusal :=
  .next (pfeEvent p (fun _ f => f.idleFault) s)

/-- NOP (R157): command byte 00h completes. -/
def execNop (p : Port) (s : State) : Host.Outcome State Fault Refusal :=
  .next (byteEventIf p Pfe.atCommand 0x00 s)

/-- STATUS (R163): command byte 01h completes. -/
def execStatus (p : Port) (s : State) : Host.Outcome State Fault Refusal :=
  .next (byteEventIf p Pfe.atCommand 0x01 s)

/-- CLEAR_FAULT (R168): command byte 02h completes. -/
def execClearFault (p : Port) (s : State) : Host.Outcome State Fault Refusal :=
  .next (byteEventIf p Pfe.atCommand 0x02 s)

/-- SET_MASK (R158): the parameter byte of a SET MASK completes. -/
def execSetMask (p : Port) (mask : Byte) (s : State) : Host.Outcome State Fault Refusal :=
  .next (byteEventIf p Pfe.atMask mask s)

/-- The taking of port `p`'s request was granted before the RECALL command byte completed and goes on (R152). -/
def noteUnderway (p : Port) (granted : Bool) (s t : State) : State :=
  if granted && (s.pfe p).idleFault.atCommand && s.grant == some (.command p) then t.setArbiter t.ringNext (some p)
  else t

/-- RECALL (R152): command byte 06h completes. `granted`: the request in the slot was granted before that, and its
taking is still in progress; the reply shifted is then the earlier one, and that taking is the next to end. -/
def execRecall (p : Port) (granted : Bool) (s : State) : Host.Outcome State Fault Refusal :=
  .next (noteUnderway p granted s (byteEventIf p Pfe.atCommand 0x06 s))

end Sys2Proof.Machine
end

