-- ==== Sys2Proof/Machine/Groups.lean ====
section
/-! DEFINITION. The group commands (chapter 1): OPEN, CLOSE, JOIN, LEAVE, ENROL, EXPEL, RESIZE, GROUP_INFO and
ROSTER, each with its checks in the order of 01 section 1.13. -/

namespace Sys2Proof.Machine

/-! ## Checks the group commands share -/

/-- The group is group 0 (FIXED_GROUP, R7). -/
def fixedGroup (g : Byte) : Bool := groupNo g == 0

/-- The group a parameter names is in the given state. -/
def State.groupIs (s : State) (g : Byte) (st : GroupState) : Bool := (s.group (groupNo g)).state == st

/-- The port is not the anchor of the group (NOT_ANCHOR). -/
def State.notAnchor (s : State) (p : Port) (g : Byte) : Bool := (s.group (groupNo g)).anchor != some p

/-- The port is in the member set of the group. -/
def State.isMember (s : State) (p : Port) (g : Byte) : Bool := PortSet.has (s.group (groupNo g)).members p

/-! ## OPEN (R11, R12) -/

/-- The checks of R11. -/
def openChecks (p : Port) (g q sr jr dl : Byte) (s : State) : List (Bool × ResultCode) :=
  [ (s.notActive p, .notAttached),
    ((senderRuleOf sr).isNone || (joinRuleOf jr).isNone || badDefaultDeadline dl || badQuota q, .badParam),
    (badGroup g, .badGroup),
    (fixedGroup g, .fixedGroup),
    (!s.groupIs g .free, .groupBusy),
    (decide (Config.reservedLimit < s.reservedTotal + q.toNat), .reserveShort) ]

/-- The effect of an OPEN that passes (R12). -/
def openEffect (p : Port) (g q sr jr dl : Byte) (s : State) : State :=
  (s.setReserved (s.reservedTotal + q.toNat)).modGroup (groupNo g) fun e =>
    { e with
      state := .opened
      anchor := some p
      members := PortSet.insert PortSet.none p
      senderRule := senderRuleOf sr
      joinRule := joinRuleOf jr
      quota := q.toNat
      defaultDeadline := dl.toNat }

/-- OPEN (R11, R12). -/
def execOpen (p : Port) (g q sr jr dl : Byte) : State → Host.Outcome State Fault Refusal :=
  takeCommand p (.openGroup g q sr jr dl) fun s =>
    judged s (openChecks p g q sr jr dl s) (okAlone (openEffect p g q sr jr dl s))

/-! ## CLOSE (R13, R14) -/

/-- The checks of R13. -/
def closeChecks (p : Port) (g : Byte) (s : State) : List (Bool × ResultCode) :=
  [ (s.notActive p, .notAttached),
    (badGroup g, .badGroup),
    (fixedGroup g, .fixedGroup),
    (s.groupIs g .free, .groupFree),
    (s.groupIs g .closing, .groupClosing),
    (s.notAnchor p g, .notAnchor) ]

/-- CLOSE (R13, R14). -/
def execClose (p : Port) (g : Byte) : State → Host.Outcome State Fault Refusal :=
  takeCommand p (.close g) fun s =>
    judged s (closeChecks p g s) (okAlone (s.enterClosing (groupNo g) p (some p)))

/-! ## JOIN and LEAVE (R16, R17) -/

/-- The checks of JOIN (R16). -/
def joinChecks (p : Port) (g : Byte) (s : State) : List (Bool × ResultCode) :=
  [ (s.notActive p, .notAttached),
    (badGroup g, .badGroup),
    (fixedGroup g, .fixedGroup),
    (s.groupIs g .free, .groupFree),
    (s.groupIs g .closing, .groupClosing),
    (s.isMember p g, .alreadyMember),
    ((s.group (groupNo g)).joinRule == some .byAnchor && s.notAnchor p g, .joinRule) ]

/-- Add a port to a group's member set. -/
def State.addMember (s : State) (g : GroupNo) (p : Port) : State :=
  s.modGroup g fun e => { e with members := PortSet.insert e.members p }

/-- Remove a port from a group's member set. -/
def State.removeMember (s : State) (g : GroupNo) (p : Port) : State :=
  s.modGroup g fun e => { e with members := PortSet.erase e.members p }

/-- JOIN (R16). -/
def execJoin (p : Port) (g : Byte) : State → Host.Outcome State Fault Refusal :=
  takeCommand p (.join g) fun s => judged s (joinChecks p g s) (okAlone (s.addMember (groupNo g) p))

/-- The checks of LEAVE (R17). -/
def leaveChecks (p : Port) (g : Byte) (s : State) : List (Bool × ResultCode) :=
  [ (s.notActive p, .notAttached),
    (badGroup g, .badGroup),
    (fixedGroup g, .fixedGroup),
    (s.groupIs g .free, .groupFree),
    (!s.isMember p g, .notMember) ]

/-- LEAVE (R17): out of the member set first, then the QUEUED deliveries of the group (R78). -/
def execLeave (p : Port) (g : Byte) : State → Host.Outcome State Fault Refusal :=
  takeCommand p (.leave g) fun s =>
    judged s (leaveChecks p g s) (okAlone ((s.removeMember (groupNo g) p).withdrawGroup p (groupNo g)))

/-! ## ENROL and EXPEL (R19, R21) -/

/-- Set the roster latch of a port unless it is the requesting port (R19, R21). -/
def State.notifyPort (s : State) (requester named : Port) : State :=
  if named = requester then s else s.modPort named fun c => { c with roster := true }

/-- The checks of ENROL (R19). -/
def enrolChecks (p : Port) (g port : Byte) (s : State) : List (Bool × ResultCode) :=
  [ (s.notActive p, .notAttached),
    (badPort port, .badParam),
    (badGroup g, .badGroup),
    (fixedGroup g, .fixedGroup),
    (s.groupIs g .free, .groupFree),
    (s.groupIs g .closing, .groupClosing),
    (s.notAnchor p g, .notAnchor),
    (s.notActive (portNo port), .portNotActive),
    (s.isMember (portNo port) g, .alreadyMember) ]

/-- ENROL (R19). -/
def execEnrol (p : Port) (g port : Byte) : State → Host.Outcome State Fault Refusal :=
  takeCommand p (.enrol g port) fun s =>
    judged s (enrolChecks p g port s)
      (okAlone ((s.addMember (groupNo g) (portNo port)).notifyPort p (portNo port)))

/-- The checks of EXPEL (R21). -/
def expelChecks (p : Port) (g port : Byte) (s : State) : List (Bool × ResultCode) :=
  [ (s.notActive p, .notAttached),
    (badPort port, .badParam),
    (badGroup g, .badGroup),
    (fixedGroup g, .fixedGroup),
    (s.groupIs g .free, .groupFree),
    (s.notAnchor p g, .notAnchor),
    (!s.isMember (portNo port) g, .notMember) ]

/-- EXPEL (R21). -/
def execExpel (p : Port) (g port : Byte) : State → Host.Outcome State Fault Refusal :=
  takeCommand p (.expel g port) fun s =>
    judged s (expelChecks p g port s)
      (okAlone (((s.removeMember (groupNo g) (portNo port)).notifyPort p (portNo port)).withdrawGroup (portNo port)
        (groupNo g)))

/-! ## RESIZE (R23) -/

/-- The checks of R23. -/
def resizeChecks (p : Port) (g q : Byte) (s : State) : List (Bool × ResultCode) :=
  [ (s.notActive p, .notAttached),
    (badQuota q, .badParam),
    (badGroup g, .badGroup),
    (fixedGroup g, .fixedGroup),
    (s.groupIs g .free, .groupFree),
    (s.groupIs g .closing, .groupClosing),
    (s.notAnchor p g, .notAnchor),
    (decide (q.toNat < (s.group (groupNo g)).used), .quotaBelowUse),
    (decide ((s.group (groupNo g)).quota < q.toNat) &&
      decide (Config.reservedLimit < s.reservedTotal + (q.toNat - (s.group (groupNo g)).quota)), .reserveShort) ]

/-- The effect of a RESIZE that passes: the new quota, and the reserved total changed by new minus old (R23). -/
def resizeEffect (g q : Byte) (s : State) : State :=
  (s.setReserved (s.reservedTotal + q.toNat - (s.group (groupNo g)).quota)).modGroup (groupNo g) fun e =>
    { e with quota := q.toNat }

/-- RESIZE (R23). -/
def execResize (p : Port) (g q : Byte) : State → Host.Outcome State Fault Refusal :=
  takeCommand p (.resize g q) fun s => judged s (resizeChecks p g q s) (okAlone (resizeEffect g q s))

/-! ## GROUP_INFO and ROSTER (R26, R27) -/

/-- The checks of GROUP INFO (R26). -/
def groupInfoChecks (p : Port) (g : Byte) (s : State) : List (Bool × ResultCode) :=
  [ (s.notActive p, .notAttached), (badGroup g, .badGroup) ]

/-- The GROUP INFO reply (10 section 10.5, R175). -/
def groupInfoReply (e : Group) : List Byte :=
  [ ResultCode.ok.byte, e.state.byte, anchorByte e.anchor, senderRuleByte e.senderRule, joinRuleByte e.joinRule,
    byteOf e.quota, byteOf e.used, byteOf e.inFlight, byteOf e.defaultDeadline,
    byteOf (PortSet.ports e.members).length ] ++ (PortSet.ports e.members).map fun q => byteOf q.val

/-- GROUP_INFO (R26). -/
def execGroupInfo (p : Port) (g : Byte) : State → Host.Outcome State Fault Refusal :=
  takeCommand p (.groupInfo g) fun s =>
    judged s (groupInfoChecks p g s) (.ok (s, groupInfoReply (s.group (groupNo g))))

/-- The role of a port in a group: 01h MEMBER, 02h ANCHOR, 03h BOTH (R175); none where it is neither. -/
def roleOf (p : Port) (e : Group) : Option Byte :=
  match PortSet.has e.members p, e.anchor == some p with
  | true, false => some 0x01
  | false, true => some 0x02
  | true, true => some 0x03
  | false, false => none

/-- The entries of a ROSTER reply, in ascending group order (R27). -/
def rosterEntries (p : Port) (s : State) : List (GroupNo × Byte) :=
  allGroups.filterMap fun g => (roleOf p (s.group g)).map fun role => (g, role)

/-- The ROSTER reply (10 section 10.5, R175). -/
def rosterReply (p : Port) (s : State) : List Byte :=
  [ResultCode.ok.byte, byteOf (rosterEntries p s).length] ++
    (rosterEntries p s).flatMap fun e => [byteOf e.1.val, e.2]

/-- ROSTER (R27). -/
def execRoster (p : Port) : State → Host.Outcome State Fault Refusal :=
  takeCommand p .roster fun s => judged s [(s.notActive p, .notAttached)] (.ok (s, rosterReply p s))

end Sys2Proof.Machine
end

