-- ==== Sys2Proof/Machine/PortStates.lean ====
section
/-! DEFINITION. The port states (chapter 7): ATTACH, DETACH, the presence report, and retirement in its six steps. -/

namespace Sys2Proof.Machine

/-! ## Retirement (07 section 7.4, R133 to R137) -/

/-- Set a port's state (R124). -/
def State.setPortState (s : State) (p : Port) (st : PortState) : State := s.modPort p fun c => { c with portState := st }

/-- Step 1: withdraw the port as target, its queue from head to tail, then its held list from the oldest fetch
(R79, R134). -/
def State.retireTargets (s : State) (p : Port) : State :=
  let t := s.withdrawAll (some p) p ((s.port p).queue.map fun d => d.handle.index)
  t.withdrawAll (some p) p ((t.port p).held.map Handle.index)

/-- Step 2: remove the port from every member set, with no roster notice (R135). -/
def State.retireMemberships (s : State) (p : Port) : State :=
  s.mapGroups fun _ e => { e with members := PortSet.erase e.members p }

/-- Anchor loss of one group (R25): the anchor becomes none, and an OPEN group enters CLOSING. -/
def State.loseAnchor (p : Port) (s : State) (g : GroupNo) : State :=
  if (s.group g).anchor = some p then
    let t := s.modGroup g fun e => { e with anchor := none }
    if (s.group g).state = .opened then t.enterClosing g p none else t
  else s

/-- Step 3: end the port's anchorships, in ascending group order (R25, R136). -/
def State.retireAnchorships (s : State) (p : Port) : State := allGroups.foldl (State.loseAnchor p) s

/-- End one message of the retiring port: withdraw every open target in ascending port order (R80). -/
def State.endMessage (p : Port) (s : State) (r : RecordIndex) : State :=
  if (s.message r).any fun m => m.sender == p then
    allPorts.foldl (fun t q => t.withdraw (some p) r q) s
  else s

/-- Step 4: end the port's own messages in flight, in ascending record index order (R80, R136). -/
def State.retireMessages (s : State) (p : Port) : State := allRecords.foldl (State.endMessage p) s

/-- Step 5: empty the send list and clear both latches (R120, R137). -/
def State.retireSends (s : State) (p : Port) : State :=
  s.modPort p fun c => { c with sends := [], doneOrder := [], missed := false, roster := false }

/-- Retirement of port `p`, ending in the given state (R133). -/
def State.retire (s : State) (p : Port) (final : PortState) : State :=
  (((((s.retireTargets p).retireMemberships p).retireAnchorships p).retireMessages p).retireSends p).setPortState
    p final

/-! ## ATTACH and DETACH -/

/-- The checks of ATTACH, against the port state alone (R130). -/
def attachChecks (p : Port) (s : State) : List (Bool × ResultCode) :=
  [ ((s.port p).portState == .active, .alreadyAttached), ((s.port p).portState == .absent, .notAttached) ]

/-- The effect of an ATTACH that passes: ACTIVE, and a member of group 0 (R6, R130). -/
def attachEffect (p : Port) (s : State) : State := (s.setPortState p .active).addMember 0 p

/-- ATTACH (R130). -/
def execAttach (p : Port) : State → Host.Outcome State Fault Refusal :=
  takeCommand p .attach fun s => judged s (attachChecks p s) (okAlone (attachEffect p s))

/-- DETACH (R132): an ACTIVE port is retired and ends DETACHED. -/
def execDetach (p : Port) : State → Host.Outcome State Fault Refusal :=
  takeCommand p .detach fun s => judged s [(s.notActive p, .notAttached)] (okAlone (s.retire p .detached))

/-! ## The presence report (R127, R128) -/

/-- The port state that a presence level stands for. -/
def levelState (present : Bool) : PortState := if present then .detached else .absent

/-- What a presence report does to the port, by the table of R128. -/
def presenceEffect (p : Port) (lostSeen present : Bool) (s : State) : State :=
  if lostSeen then
    if (s.port p).portState = .active then s.retire p (levelState present)
    else s.setPortState p (levelState present)
  else if present && (s.port p).portState == .absent then s.setPortState p .detached
  else s

/-- The core reads lost-seen and level and clears lost-seen and report pending; the level stays (R127). -/
def Pfe.takePresence (f : Pfe) : Pfe := { f with presence := ⟨false, f.presence.level, false⟩ }

/-- PRESENCE_REPORT (R127, R128): the taking of port `p`'s presence slot. -/
def execPresenceReport (p : Port) (s : State) : Host.Outcome State Fault Refusal :=
  if s.grant = some (.presence p) then
    let slot := (s.pfe p).presence
    .next ((presenceEffect p slot.lostSeen slot.level (s.modPfe p Pfe.takePresence)).granted (.presence p)).refresh
  else .next s

end Sys2Proof.Machine
end

