-- ==== Sys2Proof/Machine/Receiving.lean ====
section
/-! DEFINITION. What a receiving port does: FETCH and READ (chapter 4), ACK and NACK (chapter 5). -/

namespace Sys2Proof.Machine

/-! ## FETCH (R68 to R71) -/

/-- The message of the delivery at the head of a port's queue. -/
def State.headMessage (s : State) (p : Port) : Option Message :=
  (s.port p).queue.head?.bind fun d => s.message d.handle.index

/-- The checks of R68. -/
def fetchChecks (p : Port) (s : State) : List (Bool × ResultCode) :=
  [ (s.notActive p, .notAttached),
    ((s.port p).queue.isEmpty, .empty),
    ((s.headMessage p).any (fun m => m.confirm) && decide (Config.heldLimit ≤ (s.port p).held.length), .holdFull) ]

/-- The FETCH reply (10 section 10.5, R71, R173). -/
def fetchReply (h : Handle) (m : Message) (pool : Memory) : List Byte :=
  [ ResultCode.ok.byte, byteOf h.index.val, h.generation, byteOf m.sender.val, byteOf m.group.val,
    messageFlagsByte m ] ++ twoBytes m.length ++ twoBytes m.remaining ++ copyOut pool m.chain 0 m.length

/-- The head delivery leaves the queue (R64). -/
def State.dropHead (s : State) (p : Port) : State := s.modPort p fun c => { c with queue := c.queue.tail }

/-- A confirmed head moves into the held list (R70). -/
def fetchConfirmed (p : Port) (h : Handle) (s : State) : State :=
  ((s.dropHead p).modPort p fun c => { c with held := c.held ++ [h] }).setTarget h.index p .held 0

/-- An unconfirmed head is settled as FETCHED, and its record closes if no other target is open (R70). -/
def fetchUnconfirmed (p : Port) (h : Handle) (s : State) : State :=
  ((s.dropHead p).setTarget h.index p .fetched 0).closeIfSettled none h.index

/-- The effect of a FETCH that passes (R70). The reply is built first, from the record as it stands. -/
def fetchEffect (p : Port) (s : State) : CoreResult :=
  match (s.port p).queue with
  | [] => refuse s .empty
  | d :: _ =>
    match s.message d.handle.index with
    | none => .error .danglingHandle
    | some m =>
      .ok (if m.confirm then fetchConfirmed p d.handle s else fetchUnconfirmed p d.handle s,
        fetchReply d.handle m s.pool)

/-- FETCH (R68 to R71). -/
def execFetch (p : Port) : State → Host.Outcome State Fault Refusal :=
  takeCommand p .fetch fun s => judged s (fetchChecks p s) (fetchEffect p s)

/-! ## READ (R73, R74) -/

/-- The entry of a port's held list that carries the handle a command names (R87). -/
def State.heldEntry (s : State) (p : Port) (index generation : Byte) : Option Handle :=
  (s.port p).held.find? fun h => h.matches index generation

/-- The payload length of the message a held entry names. -/
def State.heldLength (s : State) (p : Port) (index generation : Byte) : Option Nat :=
  ((s.heldEntry p index generation).bind fun h => s.message h.index).map fun m => m.length

/-- The checks of R73: the count before the handle, the offset after it. -/
def readChecks (p : Port) (index generation offset count : Byte) (s : State) : List (Bool × ResultCode) :=
  [ (s.notActive p, .notAttached),
    (count.toNat == 0, .badParam),
    ((s.heldEntry p index generation).isNone, .stale),
    ((s.heldLength p index generation).any fun n => decide (n ≤ offset.toNat), .badParam) ]

/-- The READ reply: OK, the number of bytes, the bytes (R74). -/
def readReply (m : Message) (offset count : Byte) (pool : Memory) : List Byte :=
  [ResultCode.ok.byte, byteOf (min count.toNat (m.length - offset.toNat))] ++
    copyOut pool m.chain offset.toNat (min count.toNat (m.length - offset.toNat))

/-- The effect of a READ that passes: no table is changed (R74). -/
def readEffect (p : Port) (index generation offset count : Byte) (s : State) : CoreResult :=
  match (s.heldEntry p index generation).bind fun h => s.message h.index with
  | none => .error .danglingHandle
  | some m => .ok (s, readReply m offset count s.pool)

/-- READ (R73, R74). -/
def execRead (p : Port) (index generation offset count : Byte) : State → Host.Outcome State Fault Refusal :=
  takeCommand p (.read index generation offset count) fun s =>
    judged s (readChecks p index generation offset count s) (readEffect p index generation offset count s)

/-! ## ACK and NACK (R92 to R95) -/

/-- The checks of R92. -/
def answerChecks (p : Port) (index generation : Byte) (s : State) : List (Bool × ResultCode) :=
  [ (s.notActive p, .notAttached), ((s.heldEntry p index generation).isNone, .stale) ]

/-- The handle leaves the held list, and the port's outcome and reply code are set (R93, R94). -/
def answer (p : Port) (h : Handle) (o : TargetOutcome) (code : Byte) (s : State) : State :=
  (s.modPort p fun c => { c with held := c.held.filter fun k => k != h }).setTarget h.index p o code

/-- Stop the message of record `r` (R95): stopped becomes yes, and every target still open, in ascending port order,
becomes CANCELLED. -/
def State.stopMessage (s : State) (r : RecordIndex) : State :=
  allPorts.foldl (fun t q => t.settle r q .cancelled 0) (s.modMessage r fun m => { m with stopped := true })

/-- The record was sent with stop-on-refusal and is not stopped. -/
def State.stopsOnRefusal (s : State) (r : RecordIndex) : Bool :=
  (s.message r).any fun m => m.stopOnRefusal && !m.stopped

/-- The effect of an ACK that passes (R93). -/
def ackEffect (p : Port) (code : Byte) (h : Handle) (s : State) : State :=
  (answer p h .acked code s).closeIfSettled none h.index

/-- The effect of a NACK that passes (R94, R95): the close is checked once, after the cancellations (R91). -/
def nackEffect (p : Port) (code : Byte) (h : Handle) (s : State) : State :=
  let t := answer p h .refused code s
  (if t.stopsOnRefusal h.index then t.stopMessage h.index else t).closeIfSettled none h.index

/-- Apply the effect of an answer to the held entry it names. The entry exists where the checks of R92 have passed. -/
def answerEffect (p : Port) (index generation : Byte) (effect : Handle → State → State) (s : State) : CoreResult :=
  match s.heldEntry p index generation with
  | none => refuse s .stale
  | some h => okAlone (effect h s)

/-- ACK (R92, R93). -/
def execAck (p : Port) (index generation code : Byte) : State → Host.Outcome State Fault Refusal :=
  takeCommand p (.ack index generation code) fun s =>
    judged s (answerChecks p index generation s) (answerEffect p index generation (ackEffect p code) s)

/-- NACK (R92, R94, R95). -/
def execNack (p : Port) (index generation code : Byte) : State → Host.Outcome State Fault Refusal :=
  takeCommand p (.nack index generation code) fun s =>
    judged s (answerChecks p index generation s) (answerEffect p index generation (nackEffect p code) s)

end Sys2Proof.Machine
end

