-- ==== Sys2Proof/Machine/Sending.lean ====
section
/-! DEFINITION. SEND: the checks of R42 and the commit in the ten steps of 03 section 3.4. -/

namespace Sys2Proof.Machine

/-! ## The checks (R42) -/

/-- The sending port fails the group's sender rule (R9). A group with no rule admits no sender. -/
def failsSenderRule (p : Port) (e : Group) : Bool :=
  match e.senderRule with
  | some .anyMember => !PortSet.has e.members p
  | some .anchorOnly => e.anchor != some p
  | none => true

/-- The checks of R42. -/
def sendChecks (p : Port) (g tag flags len dl : Byte) (s : State) : List (Bool × ResultCode) :=
  [ (s.notActive p, .notAttached),
    (badFlags flags || len.toNat == 0 || decide (Config.deadlineLimit < dl.toNat), .badParam),
    (badGroup g, .badGroup),
    ((s.group (groupNo g)).state == .free, .groupFree),
    ((s.group (groupNo g)).state == .closing, .groupClosing),
    (failsSenderRule p (s.group (groupNo g)), .senderRule),
    (decide (Config.windowLimit ≤ (s.port p).sends.length), .windowFull),
    ((s.port p).sends.any fun e => e.tag == tag, .duplicateTag),
    (decide ((s.group (groupNo g)).quota - (s.group (groupNo g)).used < blocksFor len.toNat), .quotaShort) ]

/-! ## The commit -/

/-- The FREE transit record of lowest index (R47). -/
def State.freeRecord (s : State) : Option RecordIndex := allRecords.find? fun r => (s.message r).isNone

/-- The message a SEND puts into its record, with no target yet (R41, R48, R50). -/
def messageOf (p : Port) (g tag flags len dl : Byte) (chain : List Block) (s : State) : Message :=
  { sender := p
    tag := tag
    group := groupNo g
    cls := classOf flags
    confirm := flagConfirm flags
    stopOnRefusal := flagStopOnRefusal flags
    loopback := flagLoopback flags
    length := len.toNat
    chain := chain
    remaining := deadlineOf dl (s.group (groupNo g))
    stopped := false
    targets := [] }

/-- The ports of the target snapshot: the members in ascending order, the sender only under loopback (R51, R52). -/
def snapshot (p : Port) (loopback : Bool) (e : Group) : List Port :=
  (PortSet.ports e.members).filter fun q => loopback || q != p

/-- Insert a delivery: URGENT after the last URGENT one, NORMAL at the tail (R53). -/
def insertDelivery (d : Delivery) (q : List Delivery) : List Delivery :=
  match d.cls with
  | .urgent => q.takeWhile (fun e => e.cls == .urgent) ++ d :: q.dropWhile (fun e => e.cls == .urgent)
  | .normal => q ++ [d]

/-- One port joins the target list of record `r`, with a delivery in its queue, or BLOCKED at a full queue, which sets
the missed latch of an unconfirmed message's target (R53, R54). -/
def State.addTarget (r : RecordIndex) (cls : MsgClass) (confirm : Bool) (s : State) (q : Port) : State :=
  let full := decide (Config.queueLimit ≤ (s.port q).queue.length)
  let t := s.modPort q fun c =>
    if full then { c with missed := c.missed || !confirm }
    else { c with queue := insertDelivery ⟨s.handle r, cls⟩ c.queue }
  t.modMessage r fun m => { m with targets := m.targets ++ [⟨q, if full then .blocked else .queued, 0⟩] }

/-- Steps 2 to 5 of the commit: the chain, the payload, the record's fields and the group's charge (R32, R33, R48,
R49, R50). -/
def commitRecord (p : Port) (g tag flags len dl : Byte) (r : RecordIndex) (s : State) : State :=
  let n := blocksFor len.toNat
  let chain := s.freeList.take n
  let t := (s.setFreeList (s.freeList.drop n)).setPool (copyIn chain 0 ((s.pfe p).staging.take len.toNat) s.pool)
  (t.modRecord r fun rec => { rec with message := some (messageOf p g tag flags len dl chain s) }).modGroup (groupNo g)
    fun e => { e with used := e.used + n, inFlight := e.inFlight + 1 }

/-- Steps 6 to 8: the targets in ascending port order, then the send-list entry (R51 to R55). -/
def commitTargets (p : Port) (g tag flags : Byte) (r : RecordIndex) (s : State) : State :=
  let t := (snapshot p (flagLoopback flags) (s.group (groupNo g))).foldl
    (State.addTarget r (classOf flags) (flagConfirm flags)) s
  t.modPort p fun c => { c with sends := c.sends ++ [.inTransit tag (s.handle r) (flagConfirm flags)] }

/-- The number of entries in a record's target list. -/
def State.targetCount (s : State) (r : RecordIndex) : Nat := ((s.message r).map fun m => m.targets.length).getD 0

/-- The SEND reply: OK, handle, target count (R56). -/
def sendReply (r : RecordIndex) (s : State) : List Byte :=
  [ResultCode.ok.byte, byteOf r.val, (s.record r).generation, byteOf (s.targetCount r)]

/-- The commit of a SEND that passes every check, into record `r`; steps 9 and 10 build the reply and then close a
record with no QUEUED target (R56, R57). -/
def commit (p : Port) (g tag flags len dl : Byte) (r : RecordIndex) (s : State) : State × List Byte :=
  let t := commitTargets p g tag flags r (commitRecord p g tag flags len dl r s)
  (t.closeIfSettled none r, sendReply r t)

/-- The effect of a SEND that passes every check. The two faults stand for what the core has no state for: no FREE
record (R47, R121) and too few free blocks (R32, R39). -/
def sendEffect (p : Port) (g tag flags len dl : Byte) (s : State) : CoreResult :=
  match s.freeRecord with
  | none => .error .noFreeRecord
  | some r =>
    if s.freeList.length < blocksFor len.toNat then .error .poolExhausted
    else .ok (commit p g tag flags len dl r s)

/-- The taking of a SEND releases the port's staging buffer, whether it commits or refuses (R148). -/
def releaseStaging (p : Port) (s : State) : State := s.modPfe p fun f => { f with stagingInUse := false }

/-- SEND (R42 to R57). -/
def execSend (p : Port) (g tag flags len dl : Byte) : State → Host.Outcome State Fault Refusal :=
  takeCommand p (.send g tag flags len dl) fun s =>
    (judged s (sendChecks p g tag flags len dl s) (sendEffect p g tag flags len dl s)).map
      fun out => (releaseStaging p out.1, out.2)

end Sys2Proof.Machine
end

