-- ==== Sys2Proof/Machine/Ticks.lean ====
section
/-! DEFINITION. The tick and hub reset: TICK (R98, R155, R156), TICK_TAKING (R98, R99), RECORD_EXPIRY (R100, R101)
and HUB_RESET (R143). -/

namespace Sys2Proof.Machine

/-! ## TICK -/

/-- Write an accepted change of presence into the presence slot (R127, R156). -/
def PresenceSlot.accept (present : Bool) (slot : PresenceSlot) : PresenceSlot :=
  if present then { slot with level := true, pending := true } else ⟨true, false, true⟩

/-- The presence filter at a tick (R156): a sample that agrees with the previous one and differs from the accepted
level is accepted. -/
def Pfe.samplePresence (sample : Bool) (f : Pfe) : Pfe :=
  if sample == f.filter.lastSample && sample != f.filter.accepted then
    { f with filter := ⟨sample, sample⟩, presence := f.presence.accept sample }
  else { f with filter := ⟨sample, f.filter.accepted⟩ }

/-- The idle-select counter at a tick (R155). -/
def Pfe.countIdle (f : Pfe) : Pfe := if f.receiving then { f with idleCount := f.idleCount + 1 } else f

/-- A tick as one PFE sees it; an IDLE_SELECT fault that is due from the tick before comes first (R155). -/
def Pfe.tick (sample : Bool) (f : Pfe) : Pfe := (f.idleFault.samplePresence sample).countIdle

/-- TICK (R98, R155, R156): the tick slot's count rises by 1, holding at 255, and each PFE follows. -/
def execTick (prs : PortSet) (s : State) : Host.Outcome State Fault Refusal :=
  .next ((s.setTickCount (min (s.tickCount + 1) Config.tickCountLimit)).mapPfes fun p f =>
    (f.tick (PortSet.has prs p)).driveAtn (s.port p).summary)

/-! ## The tick taking -/

/-- The end of a tick taking: once no record is left to expire, the summaries are refreshed (R99, R150). -/
def State.endTick (s : State) : State := if s.midTick then s else s.refresh

/-- Lower the remaining time of every IN_TRANSIT record by `c`, holding at 0 (R99). -/
def State.lowerRemaining (s : State) (c : Nat) : State :=
  s.mapRecords fun _ t => { t with message := t.message.map fun m => { m with remaining := m.remaining - c } }

/-- TICK_TAKING (R98, R99): the core reads and clears the count and lowers every remaining time. The expirations that
follow within this taking are the steps RECORD_EXPIRY (log entry 5). -/
def execTickTaking (s : State) : Host.Outcome State Fault Refusal :=
  if s.grant = some .tick then
    .next (((s.setTickCount 0).lowerRemaining s.tickCount).granted .tick).endTick
  else .next s

/-- Set the missed latch of port `q` if it is a QUEUED target of an unconfirmed message in record `r` (R81, R100). -/
def State.missIfQueued (s : State) (r : RecordIndex) (q : Port) : State :=
  if (s.message r).any fun m => !m.confirm && m.outcomeOf q == some .queued then
    s.modPort q fun c => { c with missed := true }
  else s

/-- Expire the open targets of record `r` in ascending port order (R100). -/
def State.expireTargets (s : State) (r : RecordIndex) : State :=
  allPorts.foldl (fun t q => (t.missIfQueued r q).settle r q .expired 0) s

/-- The expiry of record `r`: its open targets, then its close (R91, R100). -/
def State.expire (s : State) (r : RecordIndex) : State := (s.expireTargets r).closeIfSettled none r

/-- RECORD_EXPIRY (R100, R101): within a tick taking, the record of lowest index that the taking brought to 0. -/
def execRecordExpiry (r : RecordIndex) (s : State) : Host.Outcome State Fault Refusal :=
  if s.dueRecord = some r then .next (s.expire r).endTick else .next s

/-! ## HUB_RESET -/

/-- HUB_RESET (R1, R29, R63, R66, R81, R86, R98, R111, R124, R143, R150, R159, R161): every table and PFE takes its
After hub reset value. The bytes of the pool are not written (R29), the level of each SELn line is the master's
(R143, log entry 9), and the queue of commands is not the hub's. -/
def execHubReset (s : State) : Host.Outcome State Fault Refusal :=
  .next (((State.reset.setPool s.pool).setPending s.pending).mapPfes fun p f => { f with sel := (s.pfe p).sel })

end Sys2Proof.Machine
end

