-- ==== Sys2Proof/Machine/Dispatch.lean ====
section
/-! DEFINITION. The dispatch of the commands: one arm for each row of spec/opcode_table.json. -/

namespace Sys2Proof.Machine

/-- The effect of a command on everything but the queue of commands. -/
def exec (i : Instr) (s : State) : Host.Outcome State Fault Refusal :=
  match i with
  | .hubReset => Sys2Proof.Machine.execHubReset s
  | .tick prs => Sys2Proof.Machine.execTick prs s
  | .idleSelect p => Sys2Proof.Machine.execIdleSelect p s
  | .select p sckHigh => Sys2Proof.Machine.execSelect p sckHigh s
  | .deselect p => Sys2Proof.Machine.execDeselect p s
  | .unknownCommand p b => Sys2Proof.Machine.execUnknownCommand p b s
  | .commandPost p b => Sys2Proof.Machine.execCommandPost p b s
  | .nop p => Sys2Proof.Machine.execNop p s
  | .status p => Sys2Proof.Machine.execStatus p s
  | .clearFault p => Sys2Proof.Machine.execClearFault p s
  | .setMask p mask => Sys2Proof.Machine.execSetMask p mask s
  | .recall p granted => Sys2Proof.Machine.execRecall p granted s
  | .attach p => Sys2Proof.Machine.execAttach p s
  | .detach p => Sys2Proof.Machine.execDetach p s
  | .clearNotices p choice => Sys2Proof.Machine.execClearNotices p choice s
  | .openGroup p g q sr jr dl => Sys2Proof.Machine.execOpen p g q sr jr dl s
  | .close p g => Sys2Proof.Machine.execClose p g s
  | .join p g => Sys2Proof.Machine.execJoin p g s
  | .leave p g => Sys2Proof.Machine.execLeave p g s
  | .enrol p g port => Sys2Proof.Machine.execEnrol p g port s
  | .expel p g port => Sys2Proof.Machine.execExpel p g port s
  | .resize p g q => Sys2Proof.Machine.execResize p g q s
  | .groupInfo p g => Sys2Proof.Machine.execGroupInfo p g s
  | .roster p => Sys2Proof.Machine.execRoster p s
  | .poolInfo p => Sys2Proof.Machine.execPoolInfo p s
  | .send p g tag flags len dl => Sys2Proof.Machine.execSend p g tag flags len dl s
  | .fetch p => Sys2Proof.Machine.execFetch p s
  | .read p index generation offset count => Sys2Proof.Machine.execRead p index generation offset count s
  | .ack p index generation code => Sys2Proof.Machine.execAck p index generation code s
  | .nack p index generation code => Sys2Proof.Machine.execNack p index generation code s
  | .take p => Sys2Proof.Machine.execTake p s
  | .tickTaking => Sys2Proof.Machine.execTickTaking s
  | .recordExpiry r => Sys2Proof.Machine.execRecordExpiry r s
  | .presenceReport p => Sys2Proof.Machine.execPresenceReport p s
  | .byteCompletion p b => Sys2Proof.Machine.execByteCompletion p b s

end Sys2Proof.Machine
end

