-- ==== Sys2Proof/Machine/Step.lean ====
section
/-! DEFINITION. One step of the hub: the command at the front of the queue. -/

namespace Sys2Proof.Machine

/-- Take the command at the front of the queue and run it with the rest of the queue; on an empty queue the hub idles
(log entry 7). -/
def step (s : State) : Host.Outcome State Fault Refusal :=
  match s.pending with
  | [] => .next s
  | c :: rest => exec c (s.setPending rest)

/-- The state with the command that a word spells put at the front of the queue; no word spells one. -/
def State.withFetchWord (s : State) (nbits w : Nat) : State :=
  match decodeTableWord nbits w with
  | some c => s.setPending (c :: s.pending)
  | none => s

end Sys2Proof.Machine
end

