-- ==== Sys2Proof/Safety.lean ====
section
/-! DEFINITION. What claims are stated in terms of: a step that completes; the laws of the hub that the spec states as
holding in every state (R2, R3, R5, R6, R28, R40, R63, R66, R91, R111, R112, R126, R155, R159, R161); and what an event
or a taking leaves as it is. -/

namespace Sys2Proof.Machine

/-! ## Completion -/

/-- The outcome is a next state: neither a fault nor a refusal. -/
def Completes (o : Host.Outcome State Fault Refusal) : Prop := ∃ t, o = .next t

/-- The outcome is a next state of which `P` holds. -/
def CompletesWith (o : Host.Outcome State Fault Refusal) (P : State → Prop) : Prop := ∃ t, o = .next t ∧ P t

/-- Whenever the outcome is a next state, `P` holds of it. -/
def OnNext (o : Host.Outcome State Fault Refusal) (P : State → Prop) : Prop := ∀ t, o = .next t → P t

/-! ## Queues and lists -/

/-- R63, R66, R111: the sizes of queues, held lists and send lists. -/
abbrev CapacityLaw (s : State) : Prop :=
  ∀ p : Port, (s.port p).queue.length ≤ 16 ∧ (s.port p).held.length ≤ 4 ∧ (s.port p).sends.length ≤ 4

/-- R63: every URGENT delivery stands before every NORMAL one. -/
abbrev UrgentFirstLaw (s : State) : Prop :=
  ∀ p : Port, (s.port p).queue.Pairwise fun a b => a.cls = .urgent ∨ b.cls = .normal

/-- The outcome of port `p` in record `r` is `o`, in a message that satisfies `f`. -/
def State.targetIs (s : State) (r : RecordIndex) (p : Port) (o : TargetOutcome) (f : Message → Bool) : Bool :=
  (s.message r).any fun m => m.outcomeOf p == some o && f m

/-- R63, R66, R91: a handle stands in port p's queue exactly while its record's target entry for p is QUEUED, in its
held list exactly while that is HELD, once, and with the record's present generation; only confirmed messages are
held; every IN_TRANSIT record has an open target, and its targets stand in ascending port order. -/
abbrev HandleLaw (s : State) : Prop :=
  (∀ p : Port, ((s.port p).queue.map Delivery.handle).Nodup ∧ (s.port p).held.Nodup) ∧
  (∀ p : Port, ∀ d ∈ (s.port p).queue,
    d.handle = s.handle d.handle.index ∧ s.targetIs d.handle.index p .queued (fun m => m.cls == d.cls) = true) ∧
  (∀ p : Port, ∀ h ∈ (s.port p).held,
    h = s.handle h.index ∧ s.targetIs h.index p .held (fun m => m.confirm) = true) ∧
  (∀ r : RecordIndex, ∀ p : Port,
    (s.targetIs r p .queued (fun _ => true) = true → s.handle r ∈ (s.port p).queue.map Delivery.handle) ∧
    (s.targetIs r p .held (fun _ => true) = true → s.handle r ∈ (s.port p).held)) ∧
  (∀ r : RecordIndex, (s.message r).all (fun m =>
    m.hasOpenTarget && decide ((m.targets.map Target.port).Pairwise (· < ·))) = true)

/-! ## The pool and the groups -/

/-- The chain that record `r` holds; a FREE record holds none. -/
def State.chainOf (s : State) (r : RecordIndex) : List Block := ((s.message r).map Message.chain).getD []

/-- R28: each block is on the free list or in the chain of exactly one record, and stands there once. -/
abbrev PoolLaw (s : State) : Prop := (s.freeList ++ allRecords.flatMap s.chainOf).Perm (List.finRange 128)

/-- The blocks that the records of group `g` hold. -/
def State.blocksOf (s : State) (g : GroupNo) : Nat :=
  (allRecords.map fun r => if s.isOfGroup g r then (s.chainOf r).length else 0).sum

/-- The number of IN_TRANSIT records of group `g`. -/
def State.flightsOf (s : State) (g : GroupNo) : Nat := (allRecords.filter (s.isOfGroup g)).length

/-- R2, R3: the reserved total is the sum of the quotas and at most 128; used and in-flight follow the records; used
never exceeds the quota; a FREE group has quota 0. -/
abbrev QuotaLaw (s : State) : Prop :=
  s.reservedTotal = (allGroups.map fun g => (s.group g).quota).sum ∧ s.reservedTotal ≤ 128 ∧
  ∀ g : GroupNo, (s.group g).used = s.blocksOf g ∧ (s.group g).inFlight = s.flightsOf g ∧
    (s.group g).used ≤ (s.group g).quota ∧ ((s.group g).state = .free → (s.group g).quota = 0)

/-- R1, R5 to R7, R11, R25: group 0 is OPEN with its fixed fields; the entry of a FREE group is as after hub reset; a
CLOSING group has a message in flight; every other OPEN group has an anchor, both rules and a quota of 1 to 112. -/
abbrev GroupLaw (s : State) : Prop :=
  ((s.group 0).state = .opened ∧ (s.group 0).anchor = none ∧ (s.group 0).senderRule = some .anyMember ∧
    (s.group 0).joinRule = none ∧ (s.group 0).quota = 16 ∧ (s.group 0).defaultDeadline = 50) ∧
  ∀ g : GroupNo,
    ((s.group g).state = .free → s.group g = Group.freed) ∧
    ((s.group g).state = .closing → 1 ≤ (s.group g).inFlight) ∧
    ((s.group g).state = .opened → g ≠ 0 → (s.group g).anchor.isSome = true ∧
      (s.group g).senderRule.isSome = true ∧ (s.group g).joinRule.isSome = true ∧
      1 ≤ (s.group g).quota ∧ (s.group g).quota ≤ 112)

/-- R31, R43, R98: the ranges of the figures: the tick slot's count, the default deadlines, and for each IN_TRANSIT
record the remaining time, the length and the chain that the length asks for. -/
abbrev BoundsLaw (s : State) : Prop :=
  s.tickCount ≤ 255 ∧
  (∀ g : GroupNo, (s.group g).state ≠ .free → 1 ≤ (s.group g).defaultDeadline ∧ (s.group g).defaultDeadline ≤ 250) ∧
  ∀ r : RecordIndex, (s.message r).all (fun m =>
    decide (m.remaining ≤ 250 ∧ 1 ≤ m.length ∧ m.length ≤ 255 ∧ m.chain.length = blocksFor m.length)) = true

/-! ## The ports -/

/-- R6, R126: group 0 is OPEN with no anchor and its members are exactly the ACTIVE ports; a port that is not ACTIVE
is member and anchor of no group, has an empty send list and a clear roster latch. -/
abbrev StationLaw (s : State) : Prop :=
  (s.group 0).state = .opened ∧ (s.group 0).anchor = none ∧
  (∀ p : Port, PortSet.has (s.group 0).members p = true ↔ (s.port p).portState = .active) ∧
  (∀ p : Port, (s.port p).portState ≠ .active →
    (∀ g : GroupNo, PortSet.has (s.group g).members p = false ∧ (s.group g).anchor ≠ some p) ∧
    (s.port p).sends = [] ∧ (s.port p).doneOrder = [] ∧ (s.port p).roster = false)

/-- The handle of an IN_TRANSIT entry. -/
def SendEntry.handleOf : SendEntry → Option Handle
  | .inTransit _ h _ => some h
  | .done _ _ => none

/-- The records sent by port `p`. -/
def State.recordsOf (s : State) (p : Port) : List RecordIndex :=
  allRecords.filter fun r => (s.message r).any fun m => m.sender == p

/-- An IN_TRANSIT entry agrees with the record it names in tag and confirm. -/
def State.entryAgrees (s : State) (e : SendEntry) : Bool :=
  match e with
  | .inTransit t h c => (s.message h.index).any fun m => m.tag == t && m.confirm == c
  | .done t k => k.tag == t

/-- R111, R112, R114: in each send list no two entries share a tag, the IN_TRANSIT entries name exactly the records
the port has sent, each once, and the completion order names exactly the DONE entries. -/
abbrev WindowLaw (s : State) : Prop :=
  ∀ p : Port, ((s.port p).sends.map SendEntry.tag).Nodup ∧
    ((s.port p).sends.filterMap SendEntry.handleOf).Perm ((s.recordsOf p).map s.handle) ∧
    (s.port p).sends.all s.entryAgrees = true ∧
    (s.port p).doneOrder.Perm (((s.port p).sends.filter SendEntry.isDone).map SendEntry.tag)

/-- Record `r` was sent by port `p`. -/
def State.sentBy (s : State) (r : RecordIndex) (p : Port) : Bool := (s.message r).any fun m => m.sender == p

/-- R126: a port that is not ACTIVE has an empty delivery queue and held list and a clear missed latch, is an open
target of no record, and is the sender of no IN_TRANSIT record. -/
abbrev InactiveLaw (s : State) : Prop :=
  ∀ p : Port, (s.port p).portState ≠ .active →
    (s.port p).queue = [] ∧ (s.port p).held = [] ∧ (s.port p).missed = false ∧
    ∀ r : RecordIndex, s.isOpenTarget r p = false ∧ s.sentBy r p = false

/-! ## Summaries and attention -/

/-- R159: between two takings every summary shows the core's tables. -/
abbrev SummaryLaw (s : State) : Prop := s.midTick = true ∨ ∀ p : Port, (s.port p).summary = summaryOf (s.port p)

/-- R161: ATNn is asserted exactly while a cause enabled in the mask is true. -/
abbrev AttentionLaw (s : State) : Prop := ∀ p : Port, (s.pfe p).atn = attention (s.port p).summary (s.pfe p)

/-! ## The front-ends -/

/-- The number of parameter bytes of a command (10 section 10.1). -/
def paramCount (c : CommandCode) : Nat := ((commandTable.find? fun row => row.command == c).map CommandRow.params).getD 0

/-- A waiting SEND refers to a staging buffer in use, not marked by a later transaction, with exactly the payload
bytes its length parameter names. -/
def Pfe.slotPayloadWhole (f : Pfe) : Bool :=
  match f.slot with
  | some (.send _ _ _ len _) => f.stagingInUse && !f.stagingMarked && f.staging.length == len.toNat
  | _ => true

/-- R40, R144, R145, R148, R155: what holds of a PFE in every state. SDOn is driven only in a transaction; the
idle-select counter stays within 0 to 4; AWAIT means that a request stands in the slot; the count of bytes to come
and the bytes received agree with the command; the payload of a waiting SEND is whole; the presence slot shows the
level accepted last; the short reply area is empty outside REPLY (R152). -/
abbrev FrontLaw (f : Pfe) : Prop :=
  (f.sel = false → f.txn = .idle) ∧
  (f.txn = .idle → f.sdo = none ∧ f.command = none) ∧
  (f.txn = .cmd → f.command = none) ∧
  f.idleCount ≤ 4 ∧
  (f.txn = .await → f.slot.isSome = true) ∧
  (f.stagingMarked = true → f.stagingInUse = true ∧ f.command = some .send ∧ (f.txn = .param ∨ f.txn = .payload)) ∧
  (f.txn = .param → 1 ≤ f.toCome ∧ f.command.any (fun c => f.params.length + f.toCome == paramCount c) = true ∧
    (f.stagingMarked = true → f.staging = [])) ∧
  (f.txn = .payload → f.command = some .send ∧ f.params.length = 5 ∧ 1 ≤ f.toCome ∧
    (f.stagingMarked = true → f.staging.length + f.toCome = payloadBytes .send f.params)) ∧
  f.slotPayloadWhole = true ∧
  f.presence.level = f.filter.accepted ∧
  (f.txn ≠ .reply → f.shortReply = [] ∧ f.replyRest = [])

/-- The law of the front-ends at every port. -/
abbrev FrontEndsLaw (s : State) : Prop := ∀ p : Port, FrontLaw (s.pfe p)

/-- R150, R152: the command slot whose taking a RECALL found in progress holds its request until that taking ends. -/
abbrev UnderwayLaw (s : State) : Prop := ∀ p : Port, s.underway = some p → (s.pfe p).slot.isSome = true

/-- All the laws together. -/
abbrev HubLaw (s : State) : Prop :=
  CapacityLaw s ∧ UrgentFirstLaw s ∧ HandleLaw s ∧ PoolLaw s ∧ QuotaLaw s ∧ GroupLaw s ∧ BoundsLaw s ∧ StationLaw s ∧
  WindowLaw s ∧ InactiveLaw s ∧ SummaryLaw s ∧ AttentionLaw s ∧ FrontEndsLaw s ∧ UnderwayLaw s ∧ Memory.wf s.pool

/-! ## Frames -/

/-- Every byte of the pool reads as before. -/
def SameBytes (s t : State) : Prop := ∀ a : Nat, Memory.read t.pool a = Memory.read s.pool a

/-- The tables of port `q` are as before, but for its published summary. -/
def SamePort (s t : State) (q : Port) : Prop := { t.port q with summary := (s.port q).summary } = s.port q

/-- No group, record, block or count of the core is changed. -/
def SameStores (s t : State) : Prop :=
  (∀ g : GroupNo, t.group g = s.group g) ∧ (∀ r : RecordIndex, t.record r = s.record r) ∧
  t.reservedTotal = s.reservedTotal ∧ t.freeList = s.freeList ∧ SameBytes s t

/-- No table of the core is changed. -/
def SameTables (s t : State) : Prop := (∀ q : Port, SamePort s t q) ∧ SameStores s t

/-- Everything outside the PFE of port `p` is as before. -/
def OnlyPfe (p : Port) (s t : State) : Prop :=
  (∀ q : Port, q ≠ p → t.pfe q = s.pfe q) ∧ (∀ q : Port, t.port q = s.port q) ∧ SameStores s t ∧
  t.tickCount = s.tickCount ∧ t.ringNext = s.ringNext ∧ t.underway = s.underway ∧ t.pending = s.pending

/-- Every summary shows the tables as they stand (R159). -/
def Published (s : State) : Prop := ∀ q : Port, (s.port q).summary = summaryOf (s.port q)

/-- What a taking leaves of a PFE that it does not answer: ATNn alone follows the new summary (R161). -/
def AttentionOnly (s t : State) (q : Port) : Prop :=
  t.pfe q = { s.pfe q with atn := attention (t.port q).summary (s.pfe q) }

/-- What the taking of port p's command with this reply does outside the core's tables (R150, R151, R159, R161):
`before` is the PFE of port p but for the reply, the slot and ATNn. -/
def AnsweredFrom (before : Pfe) (p : Port) (reply : List Byte) (s t : State) : Prop :=
  t.pfe p = { before with
    replyStore := reply
    slot := none
    txn := if before.txn = .await then .reply else before.txn
    replyRest := if before.txn = .await then reply else before.replyRest
    atn := attention (t.port p).summary before } ∧
  (∀ q : Port, q ≠ p → AttentionOnly s t q) ∧ Published t ∧
  t.tickCount = s.tickCount ∧ t.ringNext = (Slot.command p).position + 1 ∧ t.underway = none ∧ t.pending = s.pending

/-- The taking of port p's command answered with this reply, and changed nothing else of the PFEs. -/
def Answered (p : Port) (reply : List Byte) (s t : State) : Prop := AnsweredFrom (s.pfe p) p reply s t

/-- The PFE of the sending port once its SEND is taken: the staging buffer is released (R148). -/
def Pfe.stagingReleased (f : Pfe) : Pfe := { f with stagingInUse := false }

/-- The code of the first check of a list that fails (00_scope.md section 1.6). -/
def firstRefusal (checks : List (Bool × Byte)) : Option Byte := (checks.find? fun c => c.1).map fun c => c.2

/-- A command whose first failing check gives a code is answered with that code alone and changes no table. -/
def RefusesInOrder (o : Host.Outcome State Fault Refusal) (before : Pfe) (p : Port) (s : State)
    (checks : List (Bool × Byte)) : Prop :=
  ∀ code : Byte, firstRefusal checks = some code →
    CompletesWith o fun t => AnsweredFrom before p [code] s t ∧ SameTables s t

/-- The row of the table that is the taking of a request from port p's command slot. -/
def commandOf (p : Port) : Request → Instr
  | .attach => .attach p
  | .detach => .detach p
  | .clearNotices choice => .clearNotices p choice
  | .openGroup g q sr jr dl => .openGroup p g q sr jr dl
  | .close g => .close p g
  | .join g => .join p g
  | .leave g => .leave p g
  | .enrol g port => .enrol p g port
  | .expel g port => .expel p g port
  | .resize g q => .resize p g q
  | .groupInfo g => .groupInfo p g
  | .roster => .roster p
  | .poolInfo => .poolInfo p
  | .send g tag flags len dl => .send p g tag flags len dl
  | .fetch => .fetch p
  | .read index generation offset count => .read p index generation offset count
  | .ack index generation code => .ack p index generation code
  | .nack index generation code => .nack p index generation code
  | .take => .take p

/-- The request is a SEND. -/
def isSend : Request → Bool
  | .send _ _ _ _ _ => true
  | _ => false

/-- The latch after a fault (R153): the first fault is the code, a further one sets MORE. -/
def FaultLatch.after (l : FaultLatch) (code : FaultCode) : FaultLatch :=
  if l.code = .clear then { l with code := code } else { l with more := true }

/-- The PFE once an IDLE_SELECT fault that is due has been recorded, its transaction discarded and a staging buffer
that it had marked released (R153, R155); a PFE with none due is as it was. -/
def Pfe.idleRecorded (f : Pfe) : Pfe :=
  if (f.txn = .cmd ∨ f.txn = .param ∨ f.txn = .payload) ∧ f.idleCount = 4 then
    { f with
      txn := .discard, fault := f.fault.after .idleSelect, command := none, toCome := 0, params := [],
      stagingInUse := f.stagingInUse && !f.stagingMarked, stagingMarked := false }
  else f

/-! ## The fate of a record within a taking -/

/-- Record `r` now tracks `m`; no other record, no group, no block, no send list and no roster latch is changed. -/
def RecordStays (r : RecordIndex) (m : Message) (s t : State) : Prop :=
  (∀ k : RecordIndex, t.record k = if k = r then ⟨(s.record r).generation, some m⟩ else s.record k) ∧
  (∀ g : GroupNo, t.group g = s.group g) ∧ t.reservedTotal = s.reservedTotal ∧ t.freeList = s.freeList ∧
  ∀ q : Port, (t.port q).sends = (s.port q).sends ∧ (t.port q).doneOrder = (s.port q).doneOrder ∧
    (t.port q).roster = (s.port q).roster

/-- The close of a record of message `m` brings its group to FREE (R5). -/
def groupFrees (s : State) (m : Message) : Bool :=
  (s.group m.group).state == .closing && decide ((s.group m.group).inFlight ≤ 1)

/-- The completion of a message, its summary by the tests of R104 in order. -/
def completionBy (m : Message) : Completion :=
  { tag := m.tag
    group := m.group
    verdict :=
      if m.targets = [] then .noTargets
      else if m.stopped = true then .stopped
      else if ∀ x ∈ m.targets, x.outcome = .acked then .allAcked
      else .partly
    targets := m.targets }

/-- Record `r`, which now tracks `m`, closes by the four steps of R103, and no other record, group, send list or
roster latch is changed. -/
def RecordCloses (r : RecordIndex) (m : Message) (s t : State) : Prop :=
  (∀ k : RecordIndex, t.record k = if k = r then ⟨(s.record r).generation + 1, none⟩ else s.record k) ∧
  t.freeList = s.freeList ++ m.chain ∧
  (∀ g : GroupNo, t.group g =
    if g ≠ m.group then s.group g
    else if groupFrees s m = true then Group.freed
    else { s.group g with used := (s.group g).used - m.chain.length, inFlight := (s.group g).inFlight - 1 }) ∧
  t.reservedTotal = (if groupFrees s m = true then s.reservedTotal - (s.group m.group).quota else s.reservedTotal) ∧
  ∀ q : Port,
    (t.port q).roster = ((s.port q).roster || (groupFrees s m && PortSet.has (s.group m.group).members q)) ∧
    (t.port q).sends =
      (if q ≠ m.sender then (s.port q).sends
      else if m.confirm = true then
        (s.port q).sends.map fun e => if e.carries (s.handle r) then .done e.tag (completionBy m) else e
      else (s.port q).sends.filter fun e => !e.carries (s.handle r)) ∧
    (t.port q).doneOrder =
      (if q = m.sender ∧ m.confirm = true then
        (s.port q).doneOrder ++ ((s.port q).sends.filter fun e => e.carries (s.handle r)).map SendEntry.tag
      else (s.port q).doneOrder)

/-- The check of R91: record `r`, which now tracks `m`, closes exactly when no target of `m` is open. -/
def Settles (r : RecordIndex) (m : Message) (s t : State) : Prop :=
  (m.hasOpenTarget = true → RecordStays r m s t) ∧ (m.hasOpenTarget = false → RecordCloses r m s t)

/-- The message with the outcome and reply code of port `p` set. -/
def Message.withOutcome (m : Message) (p : Port) (o : TargetOutcome) (code : Byte) : Message :=
  { m with targets := m.targets.map fun x => if x.port = p then { x with outcome := o, code := code } else x }

/-- The message with every open target made final, with reply code 0. -/
def Message.withOpenSettled (m : Message) (o : TargetOutcome) : Message :=
  { m with targets := m.targets.map fun x => if x.outcome.isOpen then { x with outcome := o, code := 0 } else x }

/-- Port p's state and missed latch are as before. -/
def SamePlace (s t : State) (q : Port) : Prop :=
  (t.port q).portState = (s.port q).portState ∧ (t.port q).missed = (s.port q).missed

/-- What becomes of record `r` when port `p` alone is withdrawn from it (R76): it goes on with p WITHDRAWN while
another target is open, and closes otherwise. -/
def Withdrawn (p : Port) (r : RecordIndex) (s t : State) : Prop :=
  ∀ m : Message, s.message r = some m →
    t.record r =
      if (m.withOutcome p .withdrawn 0).hasOpenTarget then
        ⟨(s.record r).generation, some (m.withOutcome p .withdrawn 0)⟩
      else ⟨(s.record r).generation + 1, none⟩

/-! ## The closes of a taking that withdraws one port -/

/-- Port `p` is the last open target of record `r`: its withdrawal closes the record (R76, R91). -/
def State.lastOpen (s : State) (p : Port) (r : RecordIndex) : Bool :=
  (s.message r).any fun m => !(m.withOutcome p .withdrawn 0).hasOpenTarget

/-- What the closes of these records make of an entry of port `k`'s send list: the entry of a record that `k` sent is
DONE, with `p` WITHDRAWN in its completion, or gone where the message was unconfirmed; every other entry stays (R103,
R113). -/
def State.entryClosed (s : State) (closed : List RecordIndex) (p k : Port) (e : SendEntry) : Option SendEntry :=
  match closed.find? fun r => s.sentBy r k && e.carries (s.handle r) with
  | none => some e
  | some r => (s.message r).bind fun m =>
    if m.confirm then some (.done e.tag (completionBy (m.withOutcome p .withdrawn 0))) else none

/-- The tags that the closes of these records append to port `k`'s completion order: those of the confirmed messages
that `k` sent, in the order of the closes (R103, R114). -/
def State.tagsDone (s : State) (closed : List RecordIndex) (k : Port) : List Byte :=
  (closed.filter fun r => (s.message r).any fun m => m.sender == k && m.confirm).flatMap fun r =>
    ((s.port k).sends.filter fun e => e.carries (s.handle r)).map SendEntry.tag

/-- Port `k`'s send list and completion order follow the closes of these records, each closed by the withdrawal of
port `p`. -/
def SendListFollows (closed : List RecordIndex) (p k : Port) (s t : State) : Prop :=
  (t.port k).sends = (s.port k).sends.filterMap (s.entryClosed closed p k) ∧
  (t.port k).doneOrder = (s.port k).doneOrder ++ s.tagsDone closed k

/-! ## LEAVE and EXPEL -/

/-- The records that close when port `q` is out of group `g`, in the order of its queue (R78). -/
def State.closesAtLeave (s : State) (q : Port) (g : GroupNo) : List RecordIndex :=
  ((s.port q).queue.map fun d => d.handle.index).filter fun r => s.isOfGroup g r && s.lastOpen q r

/-- The departure of a member frees group `g`: it is CLOSING and nothing of it is left in flight (R5). -/
def State.departureFrees (s t : State) (g : GroupNo) : Bool :=
  (s.group g).state == .closing && t.flightsOf g == 0

/-- What LEAVE and EXPEL do once port `q` is out of group `g` (R5, R17, R21, R34, R76, R78, R103): its QUEUED deliveries
of the group go and its held list stays; the records of which it was the last open target close in queue order, with
their chains on the free list and their senders' entries in that order; the group loses the member and the charge of
those records, or becomes FREE with its quota released; nothing else of the core is changed. `told` is a port whose
roster latch is set by the command itself. -/
def LeavesGroup (q : Port) (g : GroupNo) (told : Port → Bool) (s t : State) : Prop :=
  let frees := s.departureFrees t g
  (t.port q).queue = ((s.port q).queue.filter fun d => !s.isOfGroup g d.handle.index) ∧
  (∀ k : Port, k ≠ q → (t.port k).queue = (s.port k).queue) ∧
  (∀ k : Port, (t.port k).held = (s.port k).held ∧ SamePlace s t k ∧
    (t.port k).roster = ((s.port k).roster || told k ||
      (frees && decide (k ≠ q) && PortSet.has (s.group g).members k)) ∧
    SendListFollows (s.closesAtLeave q g) q k s t) ∧
  (∀ r : RecordIndex,
    if s.isOfGroup g r = true ∧ s.targetIs r q .queued (fun _ => true) = true then Withdrawn q r s t
    else t.record r = s.record r) ∧
  t.freeList = s.freeList ++ (s.closesAtLeave q g).flatMap s.chainOf ∧
  (∀ k : GroupNo, k ≠ g → t.group k = s.group k) ∧
  t.group g =
    (if frees = true then Group.freed
    else { s.group g with
      members := PortSet.erase (s.group g).members q, used := t.blocksOf g, inFlight := t.flightsOf g }) ∧
  t.reservedTotal = (if frees = true then s.reservedTotal - (s.group g).quota else s.reservedTotal) ∧
  SameBytes s t

/-! ## Retirement -/

/-- The retirement of port `p` turns group `g` from OPEN to CLOSING: `p` is its anchor (R4, R25). -/
def State.losesAnchor (s : State) (p : Port) (g : GroupNo) : Bool :=
  (s.group g).state == .opened && (s.group g).anchor == some p

/-- The entry of group `g` once port `p` is retired (R5, R25, R133, R135, R136). A group that `p` anchored has no
anchor and is CLOSING; a CLOSING group with nothing left in flight is FREE; every other loses `p` as a member and the
charge of the records that closed, and keeps its other members, its anchor, its rules and its quota. -/
def State.groupRetired (s t : State) (p : Port) (g : GroupNo) : Group :=
  let e := s.group g
  if (e.state = .closing ∨ s.losesAnchor p g = true) ∧ t.flightsOf g = 0 then Group.freed
  else
    { e with
      state := if s.losesAnchor p g then .closing else e.state
      anchor := if e.anchor = some p then none else e.anchor
      members := PortSet.erase e.members p
      used := t.blocksOf g
      inFlight := t.flightsOf g }

/-- The retirement of `p` sets the roster latch of port `q`: `q` is a member of a group that enters CLOSING (R4), or of
a CLOSING group that becomes FREE (R5). -/
def State.rosterTold (s t : State) (p q : Port) : Bool :=
  allGroups.any fun g => PortSet.has (s.group g).members q &&
    (s.losesAnchor p g || ((s.group g).state == .closing && (t.group g).state == .free))

/-- The records that close in the retirement of port `p`, in the order of the closes: those of which `p` is the last
open target, its queue before its held list (R79, R134), then the rest of those it sent, by index (R80, R136). -/
def State.closesOf (s : State) (p : Port) : List RecordIndex :=
  let asTarget := ((s.port p).queue.map (fun d => d.handle.index) ++ (s.port p).held.map Handle.index).filter (s.lastOpen p)
  asTarget ++ allRecords.filter fun r => s.sentBy r p && decide (r ∉ asTarget)

/-- What the retirement of port `p` leaves of another port (R133, R134, R136, R138): what `p` sent is gone from its
queue and held list; its send list and completion order follow the closes; its state and missed latch stay. -/
def OtherPortRetired (p q : Port) (s t : State) : Prop :=
  (t.port q).queue = ((s.port q).queue.filter fun d => !s.sentBy d.handle.index p) ∧
  (t.port q).held = ((s.port q).held.filter fun h => !s.sentBy h.index p) ∧
  SamePlace s t q ∧
  (t.port q).roster = ((s.port q).roster || s.rosterTold t p q) ∧
  SendListFollows (s.closesOf p) p q s t

/-- What the retirement of port `p` leaves (R76, R126, R133 to R138): the port holds nothing, and is member and anchor
of no group; the messages it sent have ended and those it was open in go on without it or close; the chains of what
closed are back on the free list in the order of the closes; every group and every other port is as the definitions
above say; the quotas of the groups that became FREE are released; the pool's bytes stay. -/
def Retired (p : Port) (final : PortState) (s t : State) : Prop :=
  ((t.port p).portState = final ∧ (t.port p).queue = [] ∧ (t.port p).held = [] ∧ (t.port p).sends = [] ∧
    (t.port p).doneOrder = [] ∧ (t.port p).missed = false ∧ (t.port p).roster = false) ∧
  (∀ g : GroupNo, PortSet.has (t.group g).members p = false ∧ (t.group g).anchor ≠ some p) ∧
  (∀ r : RecordIndex,
    if s.sentBy r p = true then t.record r = ⟨(s.record r).generation + 1, none⟩
    else if s.isOpenTarget r p = true then Withdrawn p r s t
    else t.record r = s.record r) ∧
  t.freeList = s.freeList ++ (s.closesOf p).flatMap s.chainOf ∧
  (∀ g : GroupNo, t.group g = s.groupRetired t p g) ∧
  t.reservedTotal =
    s.reservedTotal - ((allGroups.filter fun g => (t.group g).state == .free).map fun g => (s.group g).quota).sum ∧
  (∀ q : Port, q ≠ p → OtherPortRetired p q s t) ∧
  SameBytes s t

/-! ## What the statements about sending and receiving name -/

/-- The held list of port `p` carries this handle, index and generation both. -/
abbrev State.holds (s : State) (p : Port) (index generation : Byte) : Prop :=
  ∃ h ∈ (s.port p).held, h.index.val = index.toNat ∧ h.generation = generation

/-- The state of a SEND's taking that passes every check of R42 and finds its record and blocks, over a pool in its
canonical form, which every step keeps. -/
abbrev State.admits (s : State) (p : Port) (g tag flags len dl : Byte) (r : RecordIndex) : Prop :=
  s.takes p (.send g tag flags len dl) = true ∧ (s.port p).portState = .active ∧
  (flags.toNat < 16 ∧ (flags.getLsbD 2 = true → flags.getLsbD 0 = true)) ∧ 1 ≤ len.toNat ∧ dl.toNat ≤ 250 ∧
  g.toNat < 40 ∧ (s.group (groupNo g)).state = .opened ∧
  (((s.group (groupNo g)).senderRule = some .anyMember ∧ PortSet.has (s.group (groupNo g)).members p = true) ∨
    ((s.group (groupNo g)).senderRule = some .anchorOnly ∧ (s.group (groupNo g)).anchor = some p)) ∧
  (s.port p).sends.length < 4 ∧ tag ∉ (s.port p).sends.map SendEntry.tag ∧
  (len.toNat + 31) / 32 ≤ (s.group (groupNo g)).quota - (s.group (groupNo g)).used ∧
  (len.toNat + 31) / 32 ≤ s.freeList.length ∧ s.freeList.Nodup ∧ (s.pfe p).staging.length = len.toNat ∧
  s.message r = none ∧ (∀ k : RecordIndex, k < r → s.message k ≠ none) ∧
  (∀ e ∈ (s.port p).sends, e.carries (s.handle r) = false) ∧ Memory.wf s.pool

/-- The targets of a SEND, in ascending port order, each QUEUED, or BLOCKED at a queue of 16 (R51 to R54). -/
abbrev State.targetsOf (s : State) (p : Port) (g flags : Byte) : List Target :=
  (allPorts.filter fun q =>
    PortSet.has (s.group (groupNo g)).members q && (flags.getLsbD 3 || decide (q ≠ p))).map fun q =>
      { port := q, outcome := if (s.port q).queue.length < 16 then .queued else .blocked, code := 0 }

/-- The message of a SEND as it stands in its record (R41, R48, R50). -/
abbrev State.messageSent (s : State) (p : Port) (g tag flags len dl : Byte) : Message :=
  { sender := p, tag := tag, group := groupNo g, cls := if flags.getLsbD 1 then .urgent else .normal,
    confirm := flags.getLsbD 0, stopOnRefusal := flags.getLsbD 2, loopback := flags.getLsbD 3,
    length := len.toNat, chain := s.freeList.take ((len.toNat + 31) / 32),
    remaining := if dl = 0x00 then (s.group (groupNo g)).defaultDeadline else dl.toNat,
    stopped := false, targets := s.targetsOf p g flags }

/-- What every commit does (R33, R53, R54, R56, R148): the reply with handle and target count, the payload in its
blocks and every other byte as before, the deliveries and the missed latches. -/
abbrev State.delivers (s : State) (p : Port) (g tag flags len dl : Byte) (r : RecordIndex)
    (t : State) : Prop :=
  let m := s.messageSent p g tag flags len dl
  AnsweredFrom (s.pfe p).stagingReleased p
    [0x00, BitVec.ofNat 8 r.val, (s.record r).generation, BitVec.ofNat 8 m.targets.length] s t ∧
  (∀ i < len.toNat, chainByte t.pool m.chain i = (s.pfe p).staging.getD i 0x00) ∧
  (∀ a : Nat, (∀ i < len.toNat, chainAddress m.chain i ≠ some a) → Memory.read t.pool a = Memory.read s.pool a) ∧
  (∀ q : Port,
    let target := decide (q ∈ m.targets.map Target.port)
    let full := decide (16 ≤ (s.port q).queue.length)
    (t.port q).queue =
      (if target && !full then
        if m.cls = .urgent then
          ((s.port q).queue.takeWhile fun d => d.cls == .urgent) ++ ⟨s.handle r, .urgent⟩ ::
            ((s.port q).queue.dropWhile fun d => d.cls == .urgent)
        else (s.port q).queue ++ [⟨s.handle r, .normal⟩]
      else (s.port q).queue) ∧
    (t.port q).missed = ((s.port q).missed || (target && full && !m.confirm)) ∧
    (t.port q).portState = (s.port q).portState ∧ (t.port q).held = (s.port q).held ∧
    (t.port q).roster = (s.port q).roster) ∧
  (∀ k : GroupNo, k ≠ groupNo g → t.group k = s.group k) ∧ t.reservedTotal = s.reservedTotal ∧
  (∀ k : RecordIndex, k ≠ r → t.record k = s.record k)

/-- The reply that gives a message to its target (R71, R173). -/
abbrev fetchedReply (s : State) (h : Handle) (m : Message) : List Byte :=
  let num := fun (n : Nat) => BitVec.ofNat 8 n
  [ 0x00, num h.index.val, h.generation, num m.sender.val, num m.group.val,
    (if m.confirm then 0x01 else 0x00) + (if m.cls = .urgent then 0x02 else 0x00),
    num (m.length / 256), num m.length, num (m.remaining / 256), num m.remaining ] ++
    copyOut s.pool m.chain 0 m.length

end Sys2Proof.Machine
end

