-- ==== Sys2Proof/WellFormed.lean ====
section
/-! DEFINITION. When a command is well formed. Ports and record indexes are in range by their types, and every
parameter byte may take any value (R170: the hub judges it). What remains: the byte of an UNKNOWN_COMMAND is no
defined command code, and the byte of a COMMAND_POST is judged against the port's state, not here. -/

namespace Sys2Proof

/-- The commands whose operands have the values their row asks for. -/
def Instr.wellFormed : Instr → Bool
  | .unknownCommand _ b => (decodeCommand b).isNone
  | .hubReset => true
  | .tick _ => true
  | .idleSelect _ => true
  | .select _ _ => true
  | .deselect _ => true
  | .commandPost _ _ => true
  | .nop _ => true
  | .status _ => true
  | .clearFault _ => true
  | .setMask _ _ => true
  | .recall _ _ => true
  | .attach _ => true
  | .detach _ => true
  | .clearNotices _ _ => true
  | .openGroup _ _ _ _ _ _ => true
  | .close _ _ => true
  | .join _ _ => true
  | .leave _ _ => true
  | .enrol _ _ _ => true
  | .expel _ _ _ => true
  | .resize _ _ _ => true
  | .groupInfo _ _ => true
  | .roster _ => true
  | .poolInfo _ => true
  | .send _ _ _ _ _ _ => true
  | .fetch _ => true
  | .read _ _ _ _ _ => true
  | .ack _ _ _ _ => true
  | .nack _ _ _ _ => true
  | .take _ => true
  | .tickTaking => true
  | .recordExpiry _ => true
  | .presenceReport _ => true
  | .byteCompletion _ _ => true

end Sys2Proof
end

