-- ==== Sys2Proof/Certificates/Slice0/Obligations.lean ====
section
/-! DEFINITION. The statements for the provers, from the numbered rules of spec/. -/

section HubObligations

open Sys2Proof Sys2Proof.Machine

/-! ## The queue of commands -/

/-- A step takes the command at the front of the queue and runs it with the rest of the queue. -/
def Obligations.StepRunsFrontCommand : Prop :=
  ∀ (c : Instr) (rest : List Instr) (s : State), step (s.setPending (c :: rest)) = exec c (s.setPending rest)

/-- On an empty queue the hub idles, and no command touches the queue (the model's choices, log entry 7). -/
def Obligations.QueueIsOnlyTakenFrom : Prop :=
  (∀ s : State, s.pending = [] → step s = .next s) ∧
  ∀ (i : Instr) (s : State), OnNext (exec i s) fun t => t.pending = s.pending

/-! ## Hub reset -/

/-- HUB_RESET completes in every state and gives every table and every PFE the values of the After hub reset columns
(R1, R29, R63, R66, R81, R86, R98, R111, R124, R143, R150, R159); the pool's bytes stay (R29), and so does the level of
SELn, which is the master's (log entry 9). The implied values of log entry 13 are cleared. -/
def Obligations.HubResetRestoresState : Prop :=
  ∀ s : State, CompletesWith (exec .hubReset s) fun t =>
    t.group 0 =
      { state := .opened, anchor := none, members := Vector.replicate 6 false, senderRule := some .anyMember,
        joinRule := none, quota := 16, used := 0, inFlight := 0, defaultDeadline := 50 } ∧
    (∀ g : GroupNo, g ≠ 0 → t.group g =
      { state := .free, anchor := none, members := Vector.replicate 6 false, senderRule := none,
        joinRule := none, quota := 0, used := 0, inFlight := 0, defaultDeadline := 0 }) ∧
    t.reservedTotal = 16 ∧
    (∀ p : Port, t.port p =
      { portState := .absent, queue := [], held := [], sends := [], doneOrder := [], missed := false,
        roster := false,
        summary := { portState := .absent, urgent := 0, normal := 0, held := 0, inTransit := 0, waiting := 0,
                     missed := false, roster := false } }) ∧
    (∀ r : RecordIndex, t.record r = { generation := 0, message := none }) ∧
    t.freeList = List.finRange 128 ∧ SameBytes s t ∧
    t.tickCount = 0 ∧ t.ringNext = 0 ∧ t.underway = none ∧ t.pending = s.pending ∧
    ∀ p : Port, t.pfe p =
    { txn := .idle, mode := .mode0, sel := (s.pfe p).sel, sdo := none, capturedStatus := 0x00, command := none,
      toCome := 0, params := [], staging := [], stagingInUse := false, stagingMarked := false, slot := none,
      presence := { lostSeen := false, level := false, pending := false }, replyStore := [], shortReply := [],
      replyRest := [], fault := { code := .clear, more := false },
      mask := { d := false, c := false, f := false, n := false }, atn := false, idleCount := 0,
      filter := { lastSample := false, accepted := false } }

/-! ## Select and deselect -/

/-- SELECT of a port that is not ABSENT starts a transaction in CMD, in the mode that SCKn shows, with the status byte
captured and placed on SDOn. A SELECT of an ABSENT port is ignored: nothing but the level of SELn changes (R125, R144,
R145, R146, R176). That a second assertion of an asserted line changes nothing is the model's choice (log entry 2). -/
def Obligations.SelectStartsOrIsIgnored : Prop :=
  ∀ (s : State) (p : Port) (sck : Bool),
    ((s.pfe p).sel = false → (s.port p).summary.portState ≠ .absent →
      CompletesWith (exec (.select p sck) s) fun t =>
      let m := (s.port p).summary
      let b := (t.pfe p).capturedStatus
      (b.getLsbD 7 = decide (m.portState = .active) ∧ b.getLsbD 6 = decide (m.urgent + m.normal ≠ 0) ∧
        b.getLsbD 5 = decide (m.urgent ≠ 0) ∧ b.getLsbD 4 = decide (m.waiting ≠ 0) ∧
        b.getLsbD 3 = decide ((s.pfe p).fault.code ≠ .clear) ∧ b.getLsbD 2 = (m.missed || m.roster) ∧
        b.getLsbD 1 = decide (m.inTransit + m.waiting = 4) ∧ b.getLsbD 0 = (s.pfe p).slot.isSome) ∧
      t.pfe p =
        { s.pfe p with
          txn := .cmd, mode := if sck then .mode3 else .mode0, sel := true, sdo := some b, capturedStatus := b,
          command := none, toCome := 0, params := [], stagingMarked := false, shortReply := [], replyRest := [],
          idleCount := 0, atn := attention m (s.pfe p) } ∧
      OnlyPfe p s t) ∧
    (((s.pfe p).sel = true ∨ (s.port p).summary.portState = .absent) →
      CompletesWith (exec (.select p sck) s) fun t =>
        t.pfe p = { s.pfe p with sel := true, atn := attention (s.port p).summary (s.pfe p) } ∧ OnlyPfe p s t)

/-- DESELECT ends the transaction from every state; in PARAM and PAYLOAD it is a framing fault, and a staging buffer
that this SEND had marked is released; the command slot, the reply store and the mask stay (R145, R152, R153, R154). -/
def Obligations.DeselectEndsTransaction : Prop :=
  ∀ (s : State) (p : Port), (s.pfe p).sel = true → (s.pfe p).idleDue = false →
    CompletesWith (exec (.deselect p) s) fun t =>
      let f := s.pfe p
      let latch :=
        if f.txn = .param then f.fault.after .shortCommand
        else if f.txn = .payload then f.fault.after .truncatedSend
        else f.fault
      t.pfe p =
        { f with
          txn := .idle, sel := false, sdo := none, command := none, toCome := 0, params := [],
          stagingInUse :=
            f.stagingInUse && !(f.stagingMarked && (decide (f.txn = .param) || decide (f.txn = .payload))),
          stagingMarked := false, shortReply := [], replyRest := [], fault := latch,
          atn := attention (s.port p).summary { f with fault := latch } } ∧
      OnlyPfe p s t

/-! ## The completion of a byte -/

/-- A command byte with parameters enters PARAM, and marks a free staging buffer where it is SEND's; a parameter byte
that is not the last is kept; the last parameter byte of a SEND of length 1 or more enters PAYLOAD; a payload byte that
is not the last is staged where this SEND marked the buffer. SDOn takes 00h (R145, R147, R148). That the length is the
fourth of the five parameters, params[3], is the model's reading, log entry 16: the words of R148 say the fifth. -/
def Obligations.CommandBytesAreReceived : Prop :=
  ∀ (s : State) (p : Port) (b : Byte), (s.pfe p).idleDue = false →
    let f := s.pfe p
    let becomes := fun (g : Pfe) => CompletesWith (exec (.byteCompletion p b) s) fun t =>
      t.pfe p = { g with idleCount := 0, sdo := some 0x00, atn := attention (s.port p).summary f } ∧ OnlyPfe p s t
    (∀ row : CommandRow, f.txn = .cmd → decodeCommand b = some row → 1 ≤ row.params →
      becomes
        { f with
          txn := .param, command := some row.command, params := [], toCome := row.params
          staging := if row.command = .send ∧ f.stagingInUse = false then [] else f.staging
          stagingInUse := f.stagingInUse || decide (row.command = .send)
          stagingMarked := f.stagingMarked || (decide (row.command = .send) && !f.stagingInUse) }) ∧
    (f.txn = .param → f.command.isSome = true → 2 ≤ f.toCome →
      becomes { f with params := f.params ++ [b], toCome := f.toCome - 1 }) ∧
    (∀ len : Byte, f.txn = .param → f.command = some .send → f.toCome = 1 → (f.params ++ [b])[3]? = some len →
      1 ≤ len.toNat → becomes { f with txn := .payload, params := f.params ++ [b], toCome := len.toNat }) ∧
    (f.txn = .payload → f.command.isSome = true → 2 ≤ f.toCome →
      becomes
        { f with staging := if f.stagingMarked then f.staging ++ [b] else f.staging, toCome := f.toCome - 1 })

/-- In AWAIT and DISCARD a byte shifts FFh and in REPLY the next reply byte, or 00h once all are shifted, whatever byte
the master clocks in; none changes the transaction. A port with no transaction completes no byte (R144, R145, R147). -/
def Obligations.LaterBytesShiftOnly : Prop :=
  ∀ (s : State) (p : Port) (b : Byte),
    let f := s.pfe p
    let becomes := fun (g : Pfe) => CompletesWith (exec (.byteCompletion p b) s) fun t =>
      t.pfe p = { g with atn := attention (s.port p).summary f } ∧ OnlyPfe p s t
    (f.txn = .await → becomes { f with idleCount := 0, sdo := some 0xFF }) ∧
    (f.txn = .discard → becomes { f with idleCount := 0, sdo := some 0xFF }) ∧
    (f.txn = .reply → ∀ (c : Byte) (rest : List Byte), f.replyRest = c :: rest →
      becomes { f with idleCount := 0, sdo := some c, replyRest := rest }) ∧
    (f.txn = .reply → f.replyRest = [] → becomes { f with idleCount := 0, sdo := some 0x00 }) ∧
    (f.txn = .idle → becomes f)

/-- A command byte that is no defined code, 08h to 0Fh, 1Ah to 1Fh or 26h to FFh, records UNKNOWN_COMMAND and sends
the PFE to DISCARD, where it shifts FFh; nothing is posted (R153, R154, R169). -/
def Obligations.UnknownCommandIsDiscarded : Prop :=
  ∀ (s : State) (p : Port) (b : Byte), (s.pfe p).txn = .cmd → (s.pfe p).idleDue = false →
    ((0x08 ≤ b.toNat ∧ b.toNat ≤ 0x0F) ∨ (0x1A ≤ b.toNat ∧ b.toNat ≤ 0x1F) ∨ 0x26 ≤ b.toNat) →
    Sys2Proof.Instr.wellFormed (.unknownCommand p b) = true ∧
    CompletesWith (exec (.unknownCommand p b) s) fun t =>
      let latch := (s.pfe p).fault.after .unknownCommand
      t.pfe p =
        { s.pfe p with
          txn := .discard, fault := latch, idleCount := 0, sdo := some 0xFF,
          atn := attention (s.port p).summary { s.pfe p with fault := latch } } ∧
      OnlyPfe p s t

/-- The rows that name what a byte completes are the completion of that byte, in the case they name (the model's
reading, log entry 3). -/
def Obligations.NamedByteEventsAreByteCompletions : Prop :=
  ∀ (s : State) (p : Port) (b : Byte), (s.pfe p).idleDue = false →
    ((s.pfe p).txn = .cmd →
      exec (.nop p) s = exec (.byteCompletion p 0x00) s ∧ exec (.status p) s = exec (.byteCompletion p 0x01) s ∧
      exec (.clearFault p) s = exec (.byteCompletion p 0x02) s ∧
      exec (.recall p false) s = exec (.byteCompletion p 0x06) s ∧
      (decodeCommand b = none → exec (.unknownCommand p b) s = exec (.byteCompletion p b) s)) ∧
    ((s.pfe p).txn = .param → (s.pfe p).command = some .setMask → (s.pfe p).toCome = 1 →
      exec (.setMask p b) s = exec (.byteCompletion p b) s) ∧
    (Pfe.completesCore b (s.pfe p) = true → exec (.commandPost p b) s = exec (.byteCompletion p b) s)

/-! ## Posting -/

/-- A core command without parameters, ATTACH, DETACH, ROSTER, POOL INFO, FETCH or TAKE, is posted into an empty slot
at its command byte, and answered BUSY while the slot is occupied (R145, R149, R151). -/
def Obligations.CommandByteIsPosted : Prop :=
  ∀ (s : State) (p : Port) (b : Byte) (c : CommandCode) (req : Request),
    (s.pfe p).txn = .cmd → (s.pfe p).idleDue = false → (s.pfe p).stagingMarked = false →
    ((b = 0x04 ∧ c = .attach ∧ req = .attach) ∨ (b = 0x05 ∧ c = .detach ∧ req = .detach) ∨
      (b = 0x18 ∧ c = .roster ∧ req = .roster) ∨ (b = 0x19 ∧ c = .poolInfo ∧ req = .poolInfo) ∨
      (b = 0x21 ∧ c = .fetch ∧ req = .fetch) ∨ (b = 0x25 ∧ c = .take ∧ req = .take)) →
    CompletesWith (exec (.commandPost p b) s) fun t =>
      let f := { s.pfe p with
        command := some c, params := [], idleCount := 0, atn := attention (s.port p).summary (s.pfe p) }
      ((s.pfe p).slot = none → t.pfe p = { f with txn := .await, slot := some req, sdo := some 0xFF }) ∧
      ((s.pfe p).slot ≠ none →
        t.pfe p = { f with txn := .reply, shortReply := [0x17], sdo := some 0x17, replyRest := [] }) ∧
      OnlyPfe p s t

/-- The byte that completes a core command with parameters posts the request with those parameters into an empty slot,
a SEND with the payload just staged; with the slot occupied, or for a SEND that found the staging buffer in use, the
answer is BUSY, the slot and the reply store stay, and a staging buffer this SEND had filled is released (R148,
R149). That a SEND is complete at its last parameter byte exactly where the fourth parameter, params[3], is 00h is the
model's reading of which parameter is the length, log entry 16: the words of R148 say the fifth. -/
def Obligations.LastByteIsPosted : Prop :=
  ∀ (s : State) (p : Port) (b : Byte) (c : CommandCode) (params : List Byte) (req : Request),
    (s.pfe p).idleDue = false → (s.pfe p).command = some c → (s.pfe p).toCome = 1 → requestOf c params = some req →
    (((s.pfe p).txn = .param ∧ params = (s.pfe p).params ++ [b] ∧ (c = .send → params[3]? = some 0x00)) ∨
      ((s.pfe p).txn = .payload ∧ params = (s.pfe p).params ∧ c = .send)) →
    CompletesWith (exec (.commandPost p b) s) fun t =>
      let staged := (s.pfe p).txn = .payload ∧ (s.pfe p).stagingMarked = true
      let f := { s.pfe p with
        params := params, toCome := 0, idleCount := 0, stagingMarked := false,
        staging := if staged then (s.pfe p).staging ++ [b] else (s.pfe p).staging,
        atn := attention (s.port p).summary (s.pfe p) }
      let posted := (s.pfe p).slot = none ∧ (c = .send → (s.pfe p).stagingMarked = true)
      (posted → t.pfe p = { f with txn := .await, slot := some req, sdo := some 0xFF }) ∧
      (¬ posted → t.pfe p =
        { f with
          txn := .reply, shortReply := [0x17], sdo := some 0x17, replyRest := [],
          stagingInUse := (s.pfe p).stagingInUse && !(s.pfe p).stagingMarked }) ∧
      OnlyPfe p s t

/-! ## Local commands -/

/-- NOP answers OK and changes nothing but the transaction. STATUS answers OK and the fields of the summary and of the
PFE, as they stand at its command byte (R157, R163, R176). -/
def Obligations.NopAndStatusAnswer : Prop :=
  ∀ (s : State) (p : Port), (s.pfe p).txn = .cmd → (s.pfe p).idleDue = false →
    (CompletesWith (exec (.nop p) s) fun t =>
      t.pfe p =
        { s.pfe p with
          txn := .reply, command := some .nop, params := [], shortReply := [0x00], sdo := some 0x00,
          replyRest := [], idleCount := 0, atn := attention (s.port p).summary (s.pfe p) } ∧
      OnlyPfe p s t) ∧
    CompletesWith (exec (.status p) s) fun t =>
      let m := (s.port p).summary
      let f := s.pfe p
      let yes := fun (c : Bool) => if c then (0x01 : Byte) else 0x00
      let fields : List Byte :=
        [ match m.portState with | .absent => 0x00 | .detached => 0x01 | .active => 0x02,
          BitVec.ofNat 8 m.urgent, BitVec.ofNat 8 m.normal, BitVec.ofNat 8 m.held, BitVec.ofNat 8 m.inTransit,
          BitVec.ofNat 8 m.waiting, yes m.missed, yes m.roster,
          match f.fault.code with
            | .clear => 0x00 | .unknownCommand => 0x01 | .shortCommand => 0x02 | .truncatedSend => 0x03
            | .idleSelect => 0x04,
          yes f.fault.more,
          (if f.mask.d then 0x01 else 0x00) + (if f.mask.c then 0x02 else 0x00) +
            (if f.mask.f then 0x04 else 0x00) + (if f.mask.n then 0x08 else 0x00),
          yes f.slot.isSome ]
      t.pfe p =
        { f with
          txn := .reply, command := some .status, params := [], shortReply := 0x00 :: fields, sdo := some 0x00,
          replyRest := fields, idleCount := 0, atn := attention m f } ∧
      OnlyPfe p s t

/-- CLEAR FAULT empties the fault latch and answers OK; the slot, the reply store and the mask stay, and ATNn follows
cause F at once (R161, R168). -/
def Obligations.ClearFaultEmptiesLatch : Prop :=
  ∀ (s : State) (p : Port), (s.pfe p).txn = .cmd → (s.pfe p).idleDue = false →
    CompletesWith (exec (.clearFault p) s) fun t =>
      let m := (s.port p).summary
      let k := (s.pfe p).mask
      t.pfe p =
        { s.pfe p with
          txn := .reply, command := some .clearFault, params := [], shortReply := [0x00], sdo := some 0x00,
          replyRest := [], idleCount := 0, fault := { code := .clear, more := false },
          atn := (k.d && decide (m.urgent + m.normal ≠ 0)) || (k.c && decide (m.waiting ≠ 0)) ||
            (k.n && (m.missed || m.roster)) } ∧
      OnlyPfe p s t

/-- SET MASK takes the four enables of its parameter and answers OK, or answers BAD_PARAM and leaves the mask where one
of bits 4 to 7 is set; ATNn follows the new mask at once (R158, R161, R170). -/
def Obligations.SetMaskReplacesMask : Prop :=
  ∀ (s : State) (p : Port) (b : Byte),
    (s.pfe p).txn = .param → (s.pfe p).command = some .setMask → (s.pfe p).params = [] → (s.pfe p).toCome = 1 →
    (s.pfe p).idleDue = false →
    CompletesWith (exec (.setMask p b) s) fun t =>
      let m := (s.port p).summary
      let k : AttentionMask := if b.toNat < 16 then
        { d := b.getLsbD 0, c := b.getLsbD 1, f := b.getLsbD 2, n := b.getLsbD 3 } else (s.pfe p).mask
      let code : Byte := if b.toNat < 16 then 0x00 else 0x02
      t.pfe p =
        { s.pfe p with
          txn := .reply, params := [b], toCome := 0, shortReply := [code], sdo := some code, replyRest := [],
          idleCount := 0, mask := k,
          atn := (k.d && decide (m.urgent + m.normal ≠ 0)) || (k.c && decide (m.waiting ≠ 0)) ||
            (k.f && decide ((s.pfe p).fault.code ≠ .clear)) || (k.n && (m.missed || m.roster)) } ∧
      OnlyPfe p s t

/-- RECALL shifts the reply store from its first byte and leaves it as it is, or answers EMPTY where it is empty; where
the slot's request was granted before, its taking is still to end (R152). -/
def Obligations.RecallShiftsReplyStore : Prop :=
  ∀ (s : State) (p : Port) (granted : Bool), (s.pfe p).txn = .cmd → (s.pfe p).idleDue = false →
    (granted = true → s.grant = some (.command p)) →
    CompletesWith (exec (.recall p granted) s) fun t =>
      let f := { s.pfe p with
        txn := .reply, command := some .recall, params := [], idleCount := 0,
        atn := attention (s.port p).summary (s.pfe p) }
      ((s.pfe p).replyStore = [] → t.pfe p =
        { f with shortReply := [0x13], sdo := some 0x13, replyRest := [] }) ∧
      (∀ (b : Byte) (rest : List Byte), (s.pfe p).replyStore = b :: rest → t.pfe p =
        { f with sdo := some b, replyRest := rest }) ∧
      OnlyPfe p (s.setArbiter s.ringNext (if granted then some p else s.underway)) t

/-! ## Ticks at the front-ends -/

/-- IDLE_SELECT: at 4 ticks in CMD, PARAM or PAYLOAD the PFE records the fault, discards what it received, releases a
staging buffer this transaction had marked, and enters DISCARD; elsewhere the event does not occur. A fault that is due
comes before the next byte or the deselect of its port and before the next tick (R153, R155; that it is a step of its
own is the model's choice, log entry 4). -/
def Obligations.IdleSelectFaults : Prop :=
  ∀ (s : State) (p : Port), CompletesWith (exec (.idleSelect p) s) fun t =>
    let f := s.pfe p
    let due := (f.txn = .cmd ∨ f.txn = .param ∨ f.txn = .payload) ∧ f.idleCount = 4
    let latch := f.fault.after .idleSelect
    (due → t.pfe p =
      { f with
        txn := .discard, fault := latch, command := none, toCome := 0, params := [],
        stagingInUse := f.stagingInUse && !f.stagingMarked, stagingMarked := false,
        atn := attention (s.port p).summary { f with fault := latch } }) ∧
    (¬ due → t.pfe p = { f with atn := attention (s.port p).summary f }) ∧
    OnlyPfe p s t ∧
    (due → exec (.deselect p) s = exec (.deselect p) t ∧
      (∀ b : Byte, exec (.byteCompletion p b) s = exec (.byteCompletion p b) t) ∧
      ∀ prs : PortSet, exec (.tick prs) s = exec (.tick prs) t)

/-- TICK adds 1 to the tick slot's count, holding at 255; every PFE samples its PRSn line, accepts a change that two
samples agree on into the presence slot, and counts an idle tick in CMD, PARAM and PAYLOAD (R98, R127, R155, R156). The
tick that brings the count of idle ticks to 4 does not itself record the fault: IDLE_SELECT is the step after it, and a
TICK at a port whose fault is still due records it first. Both are the model's choice, log entry 4; R155 says only that
the fault is recorded when the count reaches 4. -/
def Obligations.TickCountsAndSamples : Prop :=
  ∀ (s : State) (prs : PortSet),
    CompletesWith (exec (.tick prs) s) fun t =>
      t.tickCount = (if s.tickCount < 255 then s.tickCount + 1 else 255) ∧
      (∀ p : Port,
        let f := (s.pfe p).idleRecorded
        let now := PortSet.has prs p
        let change := now = f.filter.lastSample ∧ now ≠ f.filter.accepted
        let slot : PresenceSlot :=
          if change then
            if now then { lostSeen := f.presence.lostSeen, level := true, pending := true }
            else { lostSeen := true, level := false, pending := true }
          else f.presence
        t.pfe p =
          { f with
            filter := { lastSample := now, accepted := if change then now else f.filter.accepted },
            presence := slot,
            idleCount :=
              if f.txn = .cmd ∨ f.txn = .param ∨ f.txn = .payload then f.idleCount + 1 else f.idleCount,
            atn := attention (s.port p).summary f }) ∧
      (∀ p : Port, t.port p = s.port p) ∧ SameStores s t ∧
      t.ringNext = s.ringNext ∧ t.underway = s.underway ∧ t.pending = s.pending

/-! ## The arbiter -/

/-- A command slot requests while it holds a request and its PFE does not shift a RECALL reply, a presence slot with
report pending, the tick slot at 1 or more; the arbiter grants the first requesting slot from the place it goes on
from, in the fixed ring, and grants some slot while one requests (R98, R127, R150, R152). While a tick taking is in
progress it grants none (log entry 5), and a taking that a RECALL found in progress is the next to end (R152, log entry
6). That a RECALL answered EMPTY holds its slot off as well is the model's reading, log entry 15. -/
def Obligations.ArbiterGrantsFirstRequester : Prop :=
  ∀ s : State,
    (∀ p : Port,
      (s.requests (.command p) = true ↔
        (s.pfe p).slot ≠ none ∧ ¬ ((s.pfe p).txn = .reply ∧ (s.pfe p).command = some .recall)) ∧
      (s.requests (.presence p) = true ↔ (s.pfe p).presence.pending = true)) ∧
    (s.requests .tick = true ↔ 1 ≤ s.tickCount) ∧
    (s.midTick = true → s.grant = none) ∧
    (∀ p : Port, s.midTick = false → s.underway = some p → s.grant = some (.command p)) ∧
    (s.midTick = false → s.underway = none →
      (∀ slot : Slot, s.grant = some slot → s.requests slot = true ∧
        ∀ other : Slot, s.requests other = true →
          (slot.position - s.ringNext).val ≤ (other.position - s.ringNext).val) ∧
      (∀ slot : Slot, s.requests slot = true → s.grant.isSome = true))

/-- Every taking, of a command slot, a presence slot or the tick slot, leaves each other requesting slot requesting and
brings it nearer in the ring. A requesting slot is at most twelve places away, and at no distance it is the slot
granted; so it is granted after at most twelve other takings (R150). A taking that a RECALL found in progress was
granted before and is not counted (R152). -/
def Obligations.TakingsBringWaitersNearer : Prop :=
  ∀ (s : State) (waiter : Slot), s.requests waiter = true →
    let distance := fun (u : State) => (waiter.position - u.ringNext).val
    let closer := fun (t : State) => t.underway = none ∧ t.requests waiter = true ∧ distance t < distance s
    distance s ≤ 12 ∧
    (distance s = 0 → s.midTick = false → s.underway = none → s.grant = some waiter) ∧
    (∀ (p : Port) (req : Request), s.takes p req = true → s.underway = none → waiter ≠ .command p →
      OnNext (exec (commandOf p req) s) closer) ∧
    (∀ p : Port, s.grant = some (.presence p) → waiter ≠ .presence p → CompletesWith (exec (.presenceReport p) s) closer) ∧
    (s.grant = some .tick → waiter ≠ .tick → CompletesWith (exec .tickTaking s) closer)

/-- Events that do not occur change nothing: a taking the arbiter does not grant, an expiry that is not due (the
model's choice, log entry 2). -/
def Obligations.UngrantedTakingsDoNotHappen : Prop :=
  ∀ s : State,
    (∀ (p : Port) (req : Request), s.takes p req = false → exec (commandOf p req) s = .next s) ∧
    (∀ p : Port, s.grant ≠ some (.presence p) → exec (.presenceReport p) s = .next s) ∧
    (s.grant ≠ some .tick → exec .tickTaking s = .next s) ∧
    (∀ r : RecordIndex, s.dueRecord ≠ some r → exec (.recordExpiry r) s = .next s)

/-- Every taking of a command slot writes a whole reply that begins with a result code 00h to 17h, empties the slot,
moves a PFE in AWAIT to REPLY, and publishes all six summaries; a refusal is the code alone and changes no table (R150,
R151, R159, R171, R172). -/
def Obligations.EveryTakingAnswers : Prop :=
  ∀ (s : State) (p : Port) (req : Request), s.takes p req = true →
    OnNext (exec (commandOf p req) s) fun t =>
      ∃ (code : Byte) (rest : List Byte), code.toNat ≤ 0x17 ∧
        AnsweredFrom (if isSend req then (s.pfe p).stagingReleased else s.pfe p) p (code :: rest) s t ∧
        (code ≠ 0x00 → rest = [] ∧ SameTables s t)

/-! ## Refusals in order -/

/-- OPEN and CLOSE are refused by the checks of R11 and R13 in their order, with the code alone, and change no table. -/
def Obligations.OpenAndCloseRefuseInOrder : Prop :=
  ∀ (s : State) (p : Port) (g q sr jr dl : Byte),
    (s.takes p (.openGroup g q sr jr dl) = true →
      RefusesInOrder (exec (.openGroup p g q sr jr dl) s) (s.pfe p) p s
        [ (decide ((s.port p).portState ≠ .active), 0x01),
          (decide (2 ≤ sr.toNat) || decide (2 ≤ jr.toNat) || decide (dl.toNat = 0) || decide (250 < dl.toNat) ||
            decide (q.toNat = 0) || decide (112 < q.toNat), 0x02),
          (decide (40 ≤ g.toNat), 0x03),
          (decide (g.toNat = 0), 0x07),
          (decide ((s.group (groupNo g)).state ≠ .free), 0x05),
          (decide (128 < s.reservedTotal + q.toNat), 0x0E) ]) ∧
    (s.takes p (.close g) = true →
      RefusesInOrder (exec (.close p g) s) (s.pfe p) p s
        [ (decide ((s.port p).portState ≠ .active), 0x01),
          (decide (40 ≤ g.toNat), 0x03),
          (decide (g.toNat = 0), 0x07),
          (decide ((s.group (groupNo g)).state = .free), 0x04),
          (decide ((s.group (groupNo g)).state = .closing), 0x06),
          (decide ((s.group (groupNo g)).anchor ≠ some p), 0x08) ])

/-- JOIN, LEAVE, ENROL, EXPEL and RESIZE are refused by the checks of R16, R17, R19, R21 and R23 in their order, with
the code alone, and change no table. -/
def Obligations.MembershipCommandsRefuseInOrder : Prop :=
  ∀ (s : State) (p : Port) (g x : Byte),
    let e := s.group (groupNo g)
    let notAttached := (decide ((s.port p).portState ≠ .active), (0x01 : Byte))
    let groupChecks := [ (decide (40 ≤ g.toNat), (0x03 : Byte)), (decide (g.toNat = 0), 0x07),
      (decide (e.state = .free), 0x04) ]
    let closing := (decide (e.state = .closing), (0x06 : Byte))
    let notAnchor := (decide (e.anchor ≠ some p), (0x08 : Byte))
    let badPort := (decide (6 ≤ x.toNat), (0x02 : Byte))
    (s.takes p (.join g) = true → RefusesInOrder (exec (.join p g) s) (s.pfe p) p s
      (notAttached :: groupChecks ++
        [ closing, (PortSet.has e.members p, 0x0A),
          (decide (e.joinRule = some .byAnchor ∧ e.anchor ≠ some p), 0x0D) ])) ∧
    (s.takes p (.leave g) = true → RefusesInOrder (exec (.leave p g) s) (s.pfe p) p s
      (notAttached :: groupChecks ++ [ (!PortSet.has e.members p, 0x09) ])) ∧
    (s.takes p (.enrol g x) = true → RefusesInOrder (exec (.enrol p g x) s) (s.pfe p) p s
      (notAttached :: badPort :: groupChecks ++
        [ closing, notAnchor, (decide ((s.port (portNo x)).portState ≠ .active), 0x0B),
          (PortSet.has e.members (portNo x), 0x0A) ])) ∧
    (s.takes p (.expel g x) = true → RefusesInOrder (exec (.expel p g x) s) (s.pfe p) p s
      (notAttached :: badPort :: groupChecks ++ [ notAnchor, (!PortSet.has e.members (portNo x), 0x09) ])) ∧
    (s.takes p (.resize g x) = true → RefusesInOrder (exec (.resize p g x) s) (s.pfe p) p s
      (notAttached :: (decide (x.toNat = 0 ∨ 112 < x.toNat), 0x02) :: groupChecks ++
        [ closing, notAnchor, (decide (x.toNat < e.used), 0x10),
          (decide (e.quota < x.toNat ∧ 128 < s.reservedTotal + (x.toNat - e.quota)), 0x0E) ]))

/-- ATTACH, DETACH, GROUP INFO, ROSTER and POOL INFO are refused by the checks of R130, R132, R26, R27 and R38 in
their order, with the code alone, and change no table. -/
def Obligations.PortCommandsRefuseInOrder : Prop :=
  ∀ (s : State) (p : Port) (x : Byte),
    let notAttached := (decide ((s.port p).portState ≠ .active), (0x01 : Byte))
    (s.takes p .attach = true → RefusesInOrder (exec (.attach p) s) (s.pfe p) p s
      [ (decide ((s.port p).portState = .active), 0x16), (decide ((s.port p).portState = .absent), 0x01) ]) ∧
    (s.takes p .detach = true → RefusesInOrder (exec (.detach p) s) (s.pfe p) p s [notAttached]) ∧
    (s.takes p (.groupInfo x) = true → RefusesInOrder (exec (.groupInfo p x) s) (s.pfe p) p s
      [notAttached, (decide (40 ≤ x.toNat), 0x03)]) ∧
    (s.takes p .roster = true → RefusesInOrder (exec (.roster p) s) (s.pfe p) p s [notAttached]) ∧
    (s.takes p .poolInfo = true → RefusesInOrder (exec (.poolInfo p) s) (s.pfe p) p s [notAttached])

/-- SEND is refused by the checks of R42 in their order (the flags by R41, the sender rule by R9), with the code alone;
it changes no table, and its staging buffer is released (R46, R148). -/
def Obligations.SendRefusesInOrder : Prop :=
  ∀ (s : State) (p : Port) (g tag flags len dl : Byte),
    s.takes p (.send g tag flags len dl) = true →
    ((s.group (groupNo g)).state = .opened → (s.group (groupNo g)).senderRule ≠ none) →
    let e := s.group (groupNo g)
    RefusesInOrder (exec (.send p g tag flags len dl) s) (s.pfe p).stagingReleased p s
      [ (decide ((s.port p).portState ≠ .active), 0x01),
        (decide (16 ≤ flags.toNat) || (flags.getLsbD 2 && !flags.getLsbD 0) || decide (len.toNat = 0) ||
          decide (250 < dl.toNat), 0x02),
        (decide (40 ≤ g.toNat), 0x03),
        (decide (e.state = .free), 0x04),
        (decide (e.state = .closing), 0x06),
        (decide ((e.senderRule = some .anyMember ∧ PortSet.has e.members p = false) ∨
          (e.senderRule = some .anchorOnly ∧ e.anchor ≠ some p)), 0x0C),
        (decide (4 ≤ (s.port p).sends.length), 0x11),
        (decide (tag ∈ (s.port p).sends.map SendEntry.tag), 0x12),
        (decide (e.quota - e.used < (len.toNat + 31) / 32), 0x0F) ]

/-- FETCH, READ, ACK, NACK and TAKE are refused by the checks of R68, R73, R92 and R116 in their order, READ's offset
after its handle, with the code alone, and change no table. For TAKE the completion order names the DONE entries, as it
does in every state that keeps the law of the window. -/
def Obligations.ReceivingCommandsRefuseInOrder : Prop :=
  ∀ (s : State) (p : Port) (index generation x y : Byte),
    let notAttached := (decide ((s.port p).portState ≠ .active), (0x01 : Byte))
    let stale := (decide (¬ s.holds p index generation), (0x15 : Byte))
    (s.takes p .fetch = true → RefusesInOrder (exec (.fetch p) s) (s.pfe p) p s
      [ notAttached, (decide ((s.port p).queue = []), 0x13),
        (((s.port p).queue.head?.bind fun d => s.message d.handle.index).any (fun m => m.confirm) &&
          decide (4 ≤ (s.port p).held.length), 0x14) ]) ∧
    (s.takes p (.read index generation x y) = true → RefusesInOrder (exec (.read p index generation x y) s) (s.pfe p) p s
      [ notAttached, (decide (y.toNat = 0), 0x02), stale,
        (decide (∃ r : RecordIndex, r.val = index.toNat ∧
          (s.message r).any (fun m => decide (m.length ≤ x.toNat)) = true), 0x02) ]) ∧
    (s.takes p (.ack index generation x) = true →
      RefusesInOrder (exec (.ack p index generation x) s) (s.pfe p) p s [notAttached, stale]) ∧
    (s.takes p (.nack index generation x) = true →
      RefusesInOrder (exec (.nack p index generation x) s) (s.pfe p) p s [notAttached, stale]) ∧
    (s.takes p .take = true →
      (s.port p).doneOrder.Perm (((s.port p).sends.filter SendEntry.isDone).map SendEntry.tag) →
      RefusesInOrder (exec (.take p) s) (s.pfe p) p s
        [ notAttached, (decide (¬ ∃ e ∈ (s.port p).sends, e.isDone = true), 0x13) ])

/-! ## Ports and notices -/

/-- ATTACH of a DETACHED port makes it ACTIVE and a member of group 0, sets no roster latch and answers OK (R6,
R130). -/
def Obligations.AttachMakesPortActive : Prop :=
  ∀ (s : State) (p : Port), s.takes p .attach = true → (s.port p).portState = .detached →
    CompletesWith (exec (.attach p) s) fun t =>
      Answered p [0x00] s t ∧
      t.port p = { s.port p with portState := .active, summary := (t.port p).summary } ∧
      (∀ q : Port, q ≠ p → SamePort s t q) ∧
      t.group 0 = { s.group 0 with members := (t.group 0).members } ∧
      (∀ q : Port, PortSet.has (t.group 0).members q = (PortSet.has (s.group 0).members q || decide (q = p))) ∧
      (∀ g : GroupNo, g ≠ 0 → t.group g = s.group g) ∧ (∀ r : RecordIndex, t.record r = s.record r) ∧
      t.reservedTotal = s.reservedTotal ∧ t.freeList = s.freeList ∧ SameBytes s t

/-- DETACH of an ACTIVE port completes in every state and answers OK; where the laws of the handles, the quotas, the
groups and the send lists hold, it retires the port and ends it DETACHED. The PFE keeps its fault latch, mask and staging buffer (R25, R79,
R80, R132 to R138). -/
def Obligations.DetachRetiresPort : Prop :=
  ∀ (s : State) (p : Port), s.takes p .detach = true → (s.port p).portState = .active →
    CompletesWith (exec (.detach p) s) fun t =>
      Answered p [0x00] s t ∧ (HandleLaw s → QuotaLaw s → GroupLaw s → WindowLaw s → Retired p .detached s t)

/-- PRESENCE_REPORT acts by the table of R128 on lost-seen, level and port state, and clears lost-seen and report
pending in the slot (R127, R128). What a retirement leaves is said where the laws of the handles, the quotas, the
groups and the send lists hold (R25, R79, R80, R133 to R138). -/
def Obligations.PresenceReportFollowsTable : Prop :=
  ∀ (s : State) (p : Port), s.grant = some (.presence p) →
    CompletesWith (exec (.presenceReport p) s) fun t =>
      let slot := (s.pfe p).presence
      let final : PortState := if slot.level then .detached else .absent
      let was := (s.port p).portState
      (if slot.lostSeen = true ∧ was = .active then
        HandleLaw s → QuotaLaw s → GroupLaw s → WindowLaw s → Retired p final s t
      else
        t.port p = { s.port p with
          portState := if slot.lostSeen = true ∨ (slot.level = true ∧ was = .absent) then final else was
          summary := (t.port p).summary } ∧
        (∀ q : Port, q ≠ p → SamePort s t q) ∧ SameStores s t) ∧
      t.pfe p = { s.pfe p with
        presence := { lostSeen := false, level := slot.level, pending := false }
        atn := attention (t.port p).summary (s.pfe p) } ∧
      (∀ q : Port, q ≠ p → AttentionOnly s t q) ∧ Published t ∧
      t.tickCount = s.tickCount ∧ t.ringNext = (Slot.presence p).position + 1 ∧ t.underway = none ∧
      t.pending = s.pending

/-- CLEAR NOTICES is refused by the checks of R166 in their order; from an ACTIVE port with choice 01h, 02h or 03h it
clears the missed latch, the roster latch or both, leaves the other as it stands and answers OK (R166). -/
def Obligations.ClearNoticesClearsLatches : Prop :=
  ∀ (s : State) (p : Port) (choice : Byte), s.takes p (.clearNotices choice) = true →
    RefusesInOrder (exec (.clearNotices p choice) s) (s.pfe p) p s
      [ (decide ((s.port p).portState ≠ .active), 0x01),
        (decide (choice ≠ 0x01 ∧ choice ≠ 0x02 ∧ choice ≠ 0x03), 0x02) ] ∧
    ((s.port p).portState = .active → (choice = 0x01 ∨ choice = 0x02 ∨ choice = 0x03) →
      CompletesWith (exec (.clearNotices p choice) s) fun t =>
        Answered p [0x00] s t ∧
        t.port p = { s.port p with
          missed := if choice = 0x02 then (s.port p).missed else false
          roster := if choice = 0x01 then (s.port p).roster else false
          summary := (t.port p).summary } ∧
        (∀ q : Port, q ≠ p → SamePort s t q) ∧ SameStores s t)

/-! ## Groups -/

/-- OPEN that passes the checks of R11 sets the group's entry, raises the reserved total by the quota, and answers OK
(R2, R12). -/
def Obligations.OpenSetsGroupEntry : Prop :=
  ∀ (s : State) (p : Port) (g q sr jr dl : Byte), s.takes p (.openGroup g q sr jr dl) = true →
    (s.port p).portState = .active → sr.toNat < 2 → jr.toNat < 2 → 1 ≤ dl.toNat → dl.toNat ≤ 250 →
    1 ≤ q.toNat → q.toNat ≤ 112 → 1 ≤ g.toNat → g.toNat < 40 → (s.group (groupNo g)).state = .free →
    s.reservedTotal + q.toNat ≤ 128 →
    CompletesWith (exec (.openGroup p g q sr jr dl) s) fun t =>
      Answered p [0x00] s t ∧
      t.group (groupNo g) =
        { state := .opened, anchor := some p, members := (t.group (groupNo g)).members,
          senderRule := some (if sr = 0x00 then .anyMember else .anchorOnly),
          joinRule := some (if jr = 0x00 then .freeJoin else .byAnchor),
          quota := q.toNat, used := (s.group (groupNo g)).used, inFlight := (s.group (groupNo g)).inFlight,
          defaultDeadline := dl.toNat } ∧
      (∀ k : Port, PortSet.has (t.group (groupNo g)).members k = decide (k = p)) ∧
      t.reservedTotal = s.reservedTotal + q.toNat ∧
      (∀ k : GroupNo, k ≠ groupNo g → t.group k = s.group k) ∧ (∀ k : Port, SamePort s t k) ∧
      (∀ r : RecordIndex, t.record r = s.record r) ∧ t.freeList = s.freeList ∧ SameBytes s t

/-- CLOSE by the anchor of an OPEN group turns it to CLOSING, or with nothing in flight to FREE with its quota
released, sets the roster latch of every member but the closing anchor, and answers OK (R4, R5, R14). -/
def Obligations.CloseEntersClosing : Prop :=
  ∀ (s : State) (p : Port) (g : Byte), s.takes p (.close g) = true →
    (s.port p).portState = .active → 1 ≤ g.toNat → g.toNat < 40 → (s.group (groupNo g)).state = .opened →
    (s.group (groupNo g)).anchor = some p →
    CompletesWith (exec (.close p g) s) fun t =>
      let e := s.group (groupNo g)
      Answered p [0x00] s t ∧
      (1 ≤ e.inFlight → t.group (groupNo g) = { e with state := .closing } ∧ t.reservedTotal = s.reservedTotal) ∧
      (e.inFlight = 0 → t.group (groupNo g) =
          { state := .free, anchor := none, members := Vector.replicate 6 false, senderRule := none,
            joinRule := none, quota := 0, used := 0, inFlight := 0, defaultDeadline := 0 } ∧
        t.reservedTotal = s.reservedTotal - e.quota) ∧
      (∀ k : Port, t.port k = { s.port k with
        roster := (s.port k).roster || (PortSet.has e.members k && decide (k ≠ p))
        summary := (t.port k).summary }) ∧
      (∀ k : GroupNo, k ≠ groupNo g → t.group k = s.group k) ∧ (∀ r : RecordIndex, t.record r = s.record r) ∧
      t.freeList = s.freeList ∧ SameBytes s t

/-- JOIN and ENROL that pass their checks add the port to the member set of an OPEN group; ENROL sets the roster latch
of the enrolled port unless it is the requesting port, JOIN sets none; both answer OK (R16, R19). -/
def Obligations.JoinAndEnrolAddMember : Prop :=
  ∀ (s : State) (p q : Port) (g port : Byte), (s.port p).portState = .active → 1 ≤ g.toNat → g.toNat < 40 →
    (s.group (groupNo g)).state = .opened → PortSet.has (s.group (groupNo g)).members q = false →
    let e := s.group (groupNo g)
    let adds := fun (o : Host.Outcome State Fault Refusal) (told : Bool) => CompletesWith o fun t =>
      Answered p [0x00] s t ∧
      t.group (groupNo g) = { e with members := (t.group (groupNo g)).members } ∧
      (∀ k : Port, PortSet.has (t.group (groupNo g)).members k = (PortSet.has e.members k || decide (k = q))) ∧
      t.port q = { s.port q with roster := (s.port q).roster || told, summary := (t.port q).summary } ∧
      (∀ k : Port, k ≠ q → SamePort s t k) ∧
      (∀ k : GroupNo, k ≠ groupNo g → t.group k = s.group k) ∧ (∀ r : RecordIndex, t.record r = s.record r) ∧
      t.reservedTotal = s.reservedTotal ∧ t.freeList = s.freeList ∧ SameBytes s t
    (q = p → s.takes p (.join g) = true → (e.joinRule = some .byAnchor → e.anchor = some p) →
      adds (exec (.join p g) s) false) ∧
    (port.toNat = q.val → s.takes p (.enrol g port) = true → e.anchor = some p →
      (s.port q).portState = .active → adds (exec (.enrol p g port) s) (decide (q ≠ p)))

/-- LEAVE by a member of a group other than group 0, OPEN or CLOSING, and EXPEL of a member by the anchor complete in
every state and answer OK. Where the laws of the handles, the quotas, the groups and the send lists hold, the port is
out of the member set and its QUEUED deliveries of the group are withdrawn; the records it was the last open target of
close in queue order, and a CLOSING group with nothing left in flight becomes FREE; EXPEL sets the roster latch of the
expelled port unless it is the requesting port (R5, R17, R21, R34, R76, R78, R103). -/
def Obligations.LeaveAndExpelWithdrawDeliveries : Prop :=
  ∀ (s : State) (p q : Port) (g port : Byte), (s.port p).portState = .active → 1 ≤ g.toNat → g.toNat < 40 →
    (s.group (groupNo g)).state ≠ .free →
    let departs := fun (o : Host.Outcome State Fault Refusal) (gone : Port) (told : Port → Bool) =>
      CompletesWith o fun t => Answered p [0x00] s t ∧
        (HandleLaw s → QuotaLaw s → GroupLaw s → WindowLaw s → LeavesGroup gone (groupNo g) told s t)
    (s.takes p (.leave g) = true → PortSet.has (s.group (groupNo g)).members p = true →
      departs (exec (.leave p g) s) p fun _ => false) ∧
    (s.takes p (.expel g port) = true → port.toNat = q.val → (s.group (groupNo g)).anchor = some p →
      PortSet.has (s.group (groupNo g)).members q = true →
      departs (exec (.expel p g port) s) q fun k => decide (k = q ∧ q ≠ p))

/-- RESIZE by the anchor of an OPEN group, to a quota that is not below the used count and for which there is headroom,
sets the quota, changes the reserved total by new minus old, and answers OK (R2, R23). -/
def Obligations.ResizeSetsQuota : Prop :=
  ∀ (s : State) (p : Port) (g q : Byte), s.takes p (.resize g q) = true → (s.port p).portState = .active →
    1 ≤ q.toNat → q.toNat ≤ 112 → 1 ≤ g.toNat → g.toNat < 40 → (s.group (groupNo g)).state = .opened →
    (s.group (groupNo g)).anchor = some p → (s.group (groupNo g)).used ≤ q.toNat →
    (s.group (groupNo g)).quota ≤ s.reservedTotal →
    (q.toNat ≤ (s.group (groupNo g)).quota ∨ s.reservedTotal + (q.toNat - (s.group (groupNo g)).quota) ≤ 128) →
    CompletesWith (exec (.resize p g q) s) fun t =>
      Answered p [0x00] s t ∧
      t.group (groupNo g) = { s.group (groupNo g) with quota := q.toNat } ∧
      (t.reservedTotal : Int) = s.reservedTotal + (q.toNat - (s.group (groupNo g)).quota) ∧
      (∀ k : GroupNo, k ≠ groupNo g → t.group k = s.group k) ∧ (∀ k : Port, SamePort s t k) ∧
      (∀ r : RecordIndex, t.record r = s.record r) ∧ t.freeList = s.freeList ∧ SameBytes s t

/-- GROUP INFO, ROSTER and POOL INFO of an ACTIVE port answer OK with the fields the tables hold at the taking, and
change no table (R26, R27, R38, R175). -/
def Obligations.ReportsReadTables : Prop :=
  ∀ (s : State) (p : Port), (s.port p).portState = .active →
    let num := fun (n : Nat) => BitVec.ofNat 8 n
    (∀ g : Byte, s.takes p (.groupInfo g) = true → g.toNat < 40 →
      CompletesWith (exec (.groupInfo p g) s) fun t =>
        let e := s.group (groupNo g)
        let members := allPorts.filter fun q => PortSet.has e.members q
        Answered p
          ([ 0x00,
            match e.state with | .free => 0x00 | .opened => 0x01 | .closing => 0x02,
            match e.anchor with | none => 0xFF | some q => num q.val,
            match e.senderRule with | none => 0xFF | some .anyMember => 0x00 | some .anchorOnly => 0x01,
            match e.joinRule with | none => 0xFF | some .freeJoin => 0x00 | some .byAnchor => 0x01,
            num e.quota, num e.used, num e.inFlight, num e.defaultDeadline, num members.length ] ++
            members.map fun q => num q.val) s t ∧
        SameTables s t) ∧
    (s.takes p .roster = true → CompletesWith (exec (.roster p) s) fun t =>
      let listed := allGroups.filter fun g =>
        PortSet.has (s.group g).members p || decide ((s.group g).anchor = some p)
      let role := fun (g : GroupNo) => (if PortSet.has (s.group g).members p then (0x01 : Byte) else 0x00) +
        (if (s.group g).anchor = some p then 0x02 else 0x00)
      Answered p ([0x00, num listed.length] ++ listed.flatMap fun g => [num g.val, role g]) s t ∧ SameTables s t) ∧
    (s.takes p .poolInfo = true → CompletesWith (exec (.poolInfo p) s) fun t =>
      Answered p [0x00, num s.freeList.length, num s.reservedTotal, num (128 - s.reservedTotal)] s t ∧
      SameTables s t)

/-! ## Sending and the pool -/

/-- Over a pool in its canonical form, which every step keeps, the payload bytes of a chain read as the bytes copied in,
from any offset on, and a byte of the pool outside the places of the payload is as before (R31, R33, R35, R36, R37). -/
def Obligations.CopyOutReturnsCopyIn : Prop :=
  ∀ (chain : List Block) (payload : List Byte) (pool : Memory), Memory.wf pool → chain.Nodup →
    payload.length ≤ 32 * chain.length →
    (∀ offset count : Nat, offset + count ≤ payload.length →
      copyOut (copyIn chain 0 payload pool) chain offset count = (payload.drop offset).take count) ∧
    (∀ a : Nat, (∀ i < payload.length, ∀ b : Block, chain[i / 32]? = some b → a ≠ 32 * b.val + i % 32) →
      Memory.read (copyIn chain 0 payload pool) a = Memory.read pool a)

/-- SEND that passes every check and has a QUEUED target commits: the lowest FREE record takes the message, the first
blocks of the free list its payload, the group its charge, and the send list an IN_TRANSIT entry (R47 to R56). -/
def Obligations.SendCommitsMessage : Prop :=
  ∀ (s : State) (p : Port) (g tag flags len dl : Byte) (r : RecordIndex), s.admits p g tag flags len dl r →
    (s.targetsOf p g flags).any (fun x => x.outcome == .queued) = true →
    CompletesWith (exec (.send p g tag flags len dl) s) fun t =>
      let m := s.messageSent p g tag flags len dl
      s.delivers p g tag flags len dl r t ∧
      t.record r = { generation := (s.record r).generation, message := some m } ∧
      t.freeList = s.freeList.drop ((len.toNat + 31) / 32) ∧
      t.group (groupNo g) = { s.group (groupNo g) with
        used := (s.group (groupNo g)).used + (len.toNat + 31) / 32
        inFlight := (s.group (groupNo g)).inFlight + 1 } ∧
      (∀ q : Port, (t.port q).sends =
        if q = p then (s.port q).sends ++ [.inTransit tag (s.handle r) m.confirm] else (s.port q).sends) ∧
      (∀ q : Port, (t.port q).doneOrder = (s.port q).doneOrder)

/-- SEND that passes every check and has no QUEUED target closes its record in the same taking: its blocks go to the
tail of the free list, the group's counts end as they began, the generation advances, and a confirmed message leaves a
completion, NO_TARGETS or PARTIAL (R34, R57, R104). -/
def Obligations.SendClosesAtCommit : Prop :=
  ∀ (s : State) (p : Port) (g tag flags len dl : Byte) (r : RecordIndex), s.admits p g tag flags len dl r →
    (s.targetsOf p g flags).any (fun x => x.outcome == .queued) = false →
    CompletesWith (exec (.send p g tag flags len dl) s) fun t =>
      let m := s.messageSent p g tag flags len dl
      s.delivers p g tag flags len dl r t ∧
      t.record r = { generation := (s.record r).generation + 1, message := none } ∧
      t.freeList = s.freeList.drop ((len.toNat + 31) / 32) ++ s.freeList.take ((len.toNat + 31) / 32) ∧
      t.group (groupNo g) = s.group (groupNo g) ∧
      (∀ q : Port,
        (t.port q).sends =
          (if q = p ∧ m.confirm = true then
            (s.port q).sends ++
              [.done tag ⟨tag, groupNo g, if m.targets = [] then .noTargets else .partly, m.targets⟩]
          else (s.port q).sends) ∧
        (t.port q).doneOrder =
          (if q = p ∧ m.confirm = true then (s.port q).doneOrder ++ [tag] else (s.port q).doneOrder))

/-! ## Receiving -/

/-- FETCH gives the message at the head of the queue, its payload copied out first. A confirmed head, with room in the
held list, moves its handle to the tail of that list, the target becoming HELD. An unconfirmed head is removed, the
target becoming FETCHED, and the record closes when no other target is open; a full held list does not hinder it (R35,
R69, R70, R71, R103). -/
def Obligations.FetchGivesHeadMessage : Prop :=
  ∀ (s : State) (p : Port) (d : Delivery) (rest : List Delivery) (m : Message), s.takes p .fetch = true →
    (s.port p).portState = .active → (s.port p).queue = d :: rest → s.message d.handle.index = some m →
    (m.confirm = true → (s.port p).held.length < 4) →
    CompletesWith (exec (.fetch p) s) fun t =>
      Answered p (fetchedReply s d.handle m) s t ∧ SameBytes s t ∧
      (m.confirm = true → RecordStays d.handle.index (m.withOutcome p .held 0) s t) ∧
      (m.confirm = false → Settles d.handle.index (m.withOutcome p .fetched 0) s t) ∧
      ∀ q : Port, SamePlace s t q ∧
        (t.port q).queue = (if q = p then rest else (s.port q).queue) ∧
        (t.port q).held =
          (if q = p ∧ m.confirm = true then (s.port q).held ++ [d.handle] else (s.port q).held)

/-- READ of a held message with a count of 1 or more and an offset below its length gives the smaller of count and
length minus offset payload bytes, and changes no table (R36, R74). -/
def Obligations.ReadReturnsPayload : Prop :=
  ∀ (s : State) (p : Port) (h : Handle) (index generation offset count : Byte) (m : Message),
    s.takes p (.read index generation offset count) = true → (s.port p).portState = .active →
    h ∈ (s.port p).held → h.index.val = index.toNat → h.generation = generation →
    s.message h.index = some m → 1 ≤ count.toNat → offset.toNat < m.length →
    CompletesWith (exec (.read p index generation offset count) s) fun t =>
      let n := min count.toNat (m.length - offset.toNat)
      Answered p ([0x00, BitVec.ofNat 8 n] ++ copyOut s.pool m.chain offset.toNat n) s t ∧ SameTables s t

/-- ACK of a held handle removes it, makes the target ACKED with the reply code, closes the record when no target is
open, and answers OK (R93, R103). -/
def Obligations.AckSettlesTarget : Prop :=
  ∀ (s : State) (p : Port) (h : Handle) (index generation code : Byte) (m : Message),
    s.takes p (.ack index generation code) = true → (s.port p).portState = .active →
    h ∈ (s.port p).held → h.index.val = index.toNat → h.generation = generation → s.message h.index = some m →
    CompletesWith (exec (.ack p index generation code) s) fun t =>
      Answered p [0x00] s t ∧ Settles h.index (m.withOutcome p .acked code) s t ∧
      (∀ q : Port, SamePlace s t q ∧ (t.port q).queue = (s.port q).queue ∧
        (t.port q).held = (if q = p then (s.port q).held.filter (fun k => k ≠ h) else (s.port q).held)) ∧
      SameBytes s t

/-- NACK of a held handle removes it and makes the target REFUSED with the reply code; under stop-on-refusal it sets
stopped, makes every other open target CANCELLED and removes its delivery or held entry; the record closes when no
target is open; the reply is OK (R94, R95, R103). -/
def Obligations.NackRefusesOrStops : Prop :=
  ∀ (s : State) (p : Port) (h : Handle) (index generation code : Byte) (m : Message),
    s.takes p (.nack index generation code) = true → (s.port p).portState = .active →
    h ∈ (s.port p).held → h.index.val = index.toNat → h.generation = generation → s.message h.index = some m →
    m.stopped = false → HandleLaw s →
    CompletesWith (exec (.nack p index generation code) s) fun t =>
      let refused := m.withOutcome p .refused code
      Answered p [0x00] s t ∧ SameBytes s t ∧ (∀ q : Port, SamePlace s t q) ∧
      (m.stopOnRefusal = false → Settles h.index refused s t ∧
        ∀ q : Port, (t.port q).queue = (s.port q).queue ∧
          (t.port q).held = (if q = p then (s.port q).held.filter (fun k => k ≠ h) else (s.port q).held)) ∧
      (m.stopOnRefusal = true →
        RecordCloses h.index { refused.withOpenSettled .cancelled with stopped := true } s t ∧
        ∀ q : Port, (t.port q).queue = ((s.port q).queue.filter fun d => d.handle ≠ h) ∧
          (t.port q).held = (s.port q).held.filter fun k => k ≠ h)

/-- TAKE gives the completion that stands first in completion order and removes its entry; the other entries keep their
order (R114, R117, R174). A target outcome that R174 gives no code, which no completion carries, would be shown as 00h:
that is the model's, log entry 12. -/
def Obligations.TakeReturnsFirstCompletion : Prop :=
  ∀ (s : State) (p : Port) (tag : Byte) (later : List Byte) (before after : List SendEntry) (k : Completion),
    s.takes p .take = true → (s.port p).portState = .active →
    (s.port p).doneOrder = tag :: later → (s.port p).sends = before ++ .done tag k :: after →
    ((s.port p).sends.map SendEntry.tag).Nodup → later.Nodup → tag ∉ later →
    CompletesWith (exec (.take p) s) fun t =>
      let num := fun (n : Nat) => BitVec.ofNat 8 n
      Answered p
        ([ 0x00, k.tag, num k.group.val,
          match k.verdict with | .allAcked => 0x00 | .partly => 0x01 | .stopped => 0x02 | .noTargets => 0x03,
          num k.targets.length ] ++
          k.targets.flatMap fun x => [num x.port.val,
            match x.outcome with
              | .acked => 0x01 | .refused => 0x02 | .expired => 0x03 | .withdrawn => 0x04 | .blocked => 0x05
              | .cancelled => 0x06 | .queued => 0x00 | .held => 0x00 | .fetched => 0x00,
            x.code]) s t ∧
      t.port p = { s.port p with sends := before ++ after, doneOrder := later, summary := (t.port p).summary } ∧
      (∀ q : Port, q ≠ p → SamePort s t q) ∧ SameStores s t

/-! ## The tick taking -/

/-- TICK_TAKING clears the tick slot's count and lowers the remaining time of every IN_TRANSIT record by it, holding at
0; nothing else of the core is changed. The summaries are published once no record is left to expire; while one is,
the taking is in progress, and every summary and PFE stands as it was before (R98, R99, R150, R159; the expirations are
steps of their own, log entry 5). -/
def Obligations.TickTakingLowersRemaining : Prop :=
  ∀ s : State, s.grant = some .tick → CompletesWith (exec .tickTaking s) fun t =>
    t.tickCount = 0 ∧
    (∀ r : RecordIndex, (t.record r).generation = (s.record r).generation ∧
      t.message r = (s.message r).map fun m => { m with remaining := m.remaining - s.tickCount }) ∧
    (∀ g : GroupNo, t.group g = s.group g) ∧ (∀ q : Port, SamePort s t q) ∧ t.reservedTotal = s.reservedTotal ∧
    t.freeList = s.freeList ∧ SameBytes s t ∧ t.ringNext = 0 ∧ t.underway = none ∧ t.pending = s.pending ∧
    (∀ q : Port, t.pfe q = { s.pfe q with atn := (t.pfe q).atn }) ∧
    ((∀ r : RecordIndex, ∀ m : Message, t.message r = some m → m.remaining ≠ 0) →
      Published t ∧ ∀ q : Port, AttentionOnly s t q) ∧
    (∀ (r : RecordIndex) (m : Message), t.message r = some m → m.remaining = 0 →
      ∀ q : Port, (t.port q).summary = (s.port q).summary ∧ t.pfe q = s.pfe q)

/-- RECORD_EXPIRY expires the record of lowest index whose remaining time is 0: every open target becomes EXPIRED, its
delivery or held entry goes, a QUEUED target of an unconfirmed message has its missed latch set, and the record closes
(R81, R100, R101, R103). The summaries are published after the last; before that every summary and PFE
stands as it was (R159, log entry 5). -/
def Obligations.RecordExpirySettlesTargets : Prop :=
  ∀ (s : State) (r : RecordIndex) (m : Message), s.message r = some m → m.remaining = 0 →
    (∀ k : RecordIndex, k < r → ∀ m' : Message, s.message k = some m' → m'.remaining ≠ 0) → HandleLaw s →
    CompletesWith (exec (.recordExpiry r) s) fun t =>
      RecordCloses r (m.withOpenSettled .expired) s t ∧
      (∀ q : Port,
        (t.port q).portState = (s.port q).portState ∧
        (t.port q).missed = ((s.port q).missed ||
          (!m.confirm && m.targets.any fun x => x.port == q && x.outcome == .queued)) ∧
        (t.port q).queue = ((s.port q).queue.filter fun d => d.handle ≠ s.handle r) ∧
        (t.port q).held = (s.port q).held.filter fun h => h ≠ s.handle r) ∧
      SameBytes s t ∧ t.tickCount = s.tickCount ∧ t.ringNext = s.ringNext ∧ t.underway = s.underway ∧
      t.pending = s.pending ∧
      (∀ q : Port, t.pfe q = { s.pfe q with atn := (t.pfe q).atn }) ∧
      ((∀ k : RecordIndex, ∀ m' : Message, t.message k = some m' → m'.remaining ≠ 0) →
        Published t ∧ ∀ q : Port, AttentionOnly s t q) ∧
      (∀ (k : RecordIndex) (m' : Message), t.message k = some m' → m'.remaining = 0 →
        ∀ q : Port, (t.port q).summary = (s.port q).summary ∧ t.pfe q = s.pfe q)

/-- Only a tick taking brings a record to 0: between two takings no record's remaining time is 0 (R71, R99). -/
def Obligations.OnlyTickTakingBringsRecordsToZero : Prop :=
  ∀ (s : State) (i : Instr), BoundsLaw s → s.midTick = false → i ≠ .tickTaking →
    OnNext (exec i s) fun t => t.midTick = false

/-! ## Laws that every step keeps -/

/-- The laws of the hub hold after hub reset. -/
def Obligations.HubLawHoldsAtReset : Prop := HubLaw State.reset

/-- Where the laws hold, every command completes: a SEND always finds a record and its blocks, and no delivery or held
entry names a FREE record (R39, R47, R63, R121). -/
def Obligations.LawfulHubNeverStops : Prop := ∀ (s : State) (i : Instr), HubLaw s → Completes (exec i s)

/-- Queues of 16, held lists of 4, send lists of 4, and URGENT before NORMAL (R63, R66, R111). -/
def Obligations.EveryStepKeepsQueueLaws : Prop :=
  ∀ s : State, CapacityLaw s → UrgentFirstLaw s → OnNext (step s) fun t => CapacityLaw t ∧ UrgentFirstLaw t

/-- Queues and held lists agree with the target outcomes, and no IN_TRANSIT record is without an open target (R63, R66,
R91). -/
def Obligations.EveryStepKeepsHandleLaw : Prop := ∀ s : State, HandleLaw s → OnNext (step s) HandleLaw

/-- Every block is on the free list or in one chain, once (R28). -/
def Obligations.EveryStepKeepsPoolLaw : Prop := ∀ s : State, PoolLaw s → OnNext (step s) PoolLaw

/-- The reserved total is the sum of the quotas and at most 128; used and in-flight follow the records; used is within
the quota (R2, R3). -/
def Obligations.EveryStepKeepsQuotaLaw : Prop := ∀ s : State, QuotaLaw s → OnNext (step s) QuotaLaw

/-- Group 0 keeps its fixed fields, FREE entries are as after hub reset, a CLOSING group has a message in flight; the
tick count, deadlines, remaining times, lengths and chain lengths stay in their ranges (R5, R6, R7, R31, R43, R98). -/
def Obligations.EveryStepKeepsGroupAndBoundsLaws : Prop :=
  (∀ s : State, GroupLaw s → OnNext (step s) GroupLaw) ∧ (∀ s : State, BoundsLaw s → OnNext (step s) BoundsLaw)

/-- Group 0 is OPEN with no anchor and its members are the ACTIVE ports; a port that is not ACTIVE is member and anchor
of no group, has an empty send list and completion order, and a clear roster latch (R6, R126). -/
def Obligations.EveryStepKeepsStationLaw : Prop := ∀ s : State, StationLaw s → OnNext (step s) StationLaw

/-- Each send list names exactly its port's IN_TRANSIT records, with no tag twice (R111, R112, R114). The law of the
handles stands beside it, since a retirement ends only messages with an open target (R80). -/
def Obligations.EveryStepKeepsWindowLaw : Prop :=
  ∀ s : State, HandleLaw s → WindowLaw s → OnNext (step s) fun t => HandleLaw t ∧ WindowLaw t

/-- A port that is not ACTIVE is member and anchor of no group, holds no delivery, held entry, send-list entry or set
latch, is an open target of no record and has no message in flight; hub reset makes every port so (R126). The laws that
tie queues, held lists, send lists and members to the records and ports stand beside it. -/
def Obligations.InactivePortsTakeNoPart : Prop :=
  (∀ s : State, HandleLaw s → WindowLaw s → StationLaw s → InactiveLaw s →
    OnNext (step s) fun t => StationLaw t ∧ InactiveLaw t) ∧
  ∀ s : State, CompletesWith (exec .hubReset s) fun t =>
    (∀ p : Port, (t.port p).portState = .absent) ∧ StationLaw t ∧ InactiveLaw t

/-- The published summaries show the tables between takings, and ATNn stands at its causes (R159, R161). -/
def Obligations.EveryStepKeepsPublishedState : Prop :=
  (∀ s : State, SummaryLaw s → OnNext (step s) SummaryLaw) ∧
  (∀ s : State, AttentionLaw s → OnNext (step s) AttentionLaw)

/-- The state of each PFE stays consistent: SDOn, the counters, the staging buffer of a waiting SEND, the short reply
area. The command slot whose taking a RECALL found in progress keeps its request until that taking ends, so the slot
that is granted then is never empty (R40, R144, R145, R148, R150, R152, R155). -/
def Obligations.EveryStepKeepsFrontEndsLaw : Prop :=
  (∀ s : State, FrontEndsLaw s → OnNext (step s) FrontEndsLaw) ∧
  (∀ s : State, UnderwayLaw s → OnNext (step s) UnderwayLaw)

/-- The pool's memory keeps its canonical form, inside its 4096 bytes. -/
def Obligations.EveryStepKeepsMemoryForm : Prop :=
  ∀ s : State, Memory.wf s.pool → OnNext (step s) fun t => Memory.wf t.pool

end HubObligations
end

