-- ==== Sys2Proof/Laws/State.lean ====
section
/-! SUPPORT. One lemma for each field of State under each named update of Machine/Ops.lean, so that no later proof
unfolds a record update; and when two states are equal. -/

namespace Sys2Proof.Machine.Laws

/-! ### modPfe -/

@[simp] theorem modPfe_pfe_same (s : State) (i : Port) (f : Pfe → Pfe) :
    (s.modPfe i f).pfe i = f (s.pfe i) := by
  simp [State.modPfe, State.pfe]

theorem modPfe_pfe (s : State) (i : Port) (f : Pfe → Pfe) (j : Port) :
    (s.modPfe i f).pfe j = if i = j then f (s.pfe i) else s.pfe j := by
  simp [State.modPfe, State.pfe, Vector.getElem_set, Fin.ext_iff]

@[simp] theorem modPfe_pfe_ne (s : State) (i : Port) (f : Pfe → Pfe) (j : Port) (h : i ≠ j) :
    (s.modPfe i f).pfe j = s.pfe j := by
  rw [modPfe_pfe, if_neg h]

@[simp] theorem modPfe_port (s : State) (i : Port) (f : Pfe → Pfe) (p : Port) :
    (s.modPfe i f).port p = s.port p := rfl

@[simp] theorem modPfe_group (s : State) (i : Port) (f : Pfe → Pfe) (g : GroupNo) :
    (s.modPfe i f).group g = s.group g := rfl

@[simp] theorem modPfe_record (s : State) (i : Port) (f : Pfe → Pfe) (r : RecordIndex) :
    (s.modPfe i f).record r = s.record r := rfl

@[simp] theorem modPfe_message (s : State) (i : Port) (f : Pfe → Pfe) (r : RecordIndex) :
    (s.modPfe i f).message r = s.message r := rfl

@[simp] theorem modPfe_handle (s : State) (i : Port) (f : Pfe → Pfe) (r : RecordIndex) :
    (s.modPfe i f).handle r = s.handle r := rfl

@[simp] theorem modPfe_reservedTotal (s : State) (i : Port) (f : Pfe → Pfe) :
    (s.modPfe i f).reservedTotal = s.reservedTotal := rfl

@[simp] theorem modPfe_freeList (s : State) (i : Port) (f : Pfe → Pfe) :
    (s.modPfe i f).freeList = s.freeList := rfl

@[simp] theorem modPfe_pool (s : State) (i : Port) (f : Pfe → Pfe) :
    (s.modPfe i f).pool = s.pool := rfl

@[simp] theorem modPfe_tickCount (s : State) (i : Port) (f : Pfe → Pfe) :
    (s.modPfe i f).tickCount = s.tickCount := rfl

@[simp] theorem modPfe_ringNext (s : State) (i : Port) (f : Pfe → Pfe) :
    (s.modPfe i f).ringNext = s.ringNext := rfl

@[simp] theorem modPfe_underway (s : State) (i : Port) (f : Pfe → Pfe) :
    (s.modPfe i f).underway = s.underway := rfl

@[simp] theorem modPfe_pending (s : State) (i : Port) (f : Pfe → Pfe) :
    (s.modPfe i f).pending = s.pending := rfl

/-! ### modPort -/

@[simp] theorem modPort_port_same (s : State) (i : Port) (f : CorePort → CorePort) :
    (s.modPort i f).port i = f (s.port i) := by
  simp [State.modPort, State.port]

theorem modPort_port (s : State) (i : Port) (f : CorePort → CorePort) (j : Port) :
    (s.modPort i f).port j = if i = j then f (s.port i) else s.port j := by
  simp [State.modPort, State.port, Vector.getElem_set, Fin.ext_iff]

@[simp] theorem modPort_port_ne (s : State) (i : Port) (f : CorePort → CorePort) (j : Port) (h : i ≠ j) :
    (s.modPort i f).port j = s.port j := by
  rw [modPort_port, if_neg h]

@[simp] theorem modPort_pfe (s : State) (i : Port) (f : CorePort → CorePort) (p : Port) :
    (s.modPort i f).pfe p = s.pfe p := rfl

@[simp] theorem modPort_group (s : State) (i : Port) (f : CorePort → CorePort) (g : GroupNo) :
    (s.modPort i f).group g = s.group g := rfl

@[simp] theorem modPort_record (s : State) (i : Port) (f : CorePort → CorePort) (r : RecordIndex) :
    (s.modPort i f).record r = s.record r := rfl

@[simp] theorem modPort_message (s : State) (i : Port) (f : CorePort → CorePort) (r : RecordIndex) :
    (s.modPort i f).message r = s.message r := rfl

@[simp] theorem modPort_handle (s : State) (i : Port) (f : CorePort → CorePort) (r : RecordIndex) :
    (s.modPort i f).handle r = s.handle r := rfl

@[simp] theorem modPort_reservedTotal (s : State) (i : Port) (f : CorePort → CorePort) :
    (s.modPort i f).reservedTotal = s.reservedTotal := rfl

@[simp] theorem modPort_freeList (s : State) (i : Port) (f : CorePort → CorePort) :
    (s.modPort i f).freeList = s.freeList := rfl

@[simp] theorem modPort_pool (s : State) (i : Port) (f : CorePort → CorePort) :
    (s.modPort i f).pool = s.pool := rfl

@[simp] theorem modPort_tickCount (s : State) (i : Port) (f : CorePort → CorePort) :
    (s.modPort i f).tickCount = s.tickCount := rfl

@[simp] theorem modPort_ringNext (s : State) (i : Port) (f : CorePort → CorePort) :
    (s.modPort i f).ringNext = s.ringNext := rfl

@[simp] theorem modPort_underway (s : State) (i : Port) (f : CorePort → CorePort) :
    (s.modPort i f).underway = s.underway := rfl

@[simp] theorem modPort_pending (s : State) (i : Port) (f : CorePort → CorePort) :
    (s.modPort i f).pending = s.pending := rfl

/-! ### modGroup -/

@[simp] theorem modGroup_group_same (s : State) (i : GroupNo) (f : Group → Group) :
    (s.modGroup i f).group i = f (s.group i) := by
  simp [State.modGroup, State.group]

theorem modGroup_group (s : State) (i : GroupNo) (f : Group → Group) (j : GroupNo) :
    (s.modGroup i f).group j = if i = j then f (s.group i) else s.group j := by
  simp [State.modGroup, State.group, Vector.getElem_set, Fin.ext_iff]

@[simp] theorem modGroup_group_ne (s : State) (i : GroupNo) (f : Group → Group) (j : GroupNo) (h : i ≠ j) :
    (s.modGroup i f).group j = s.group j := by
  rw [modGroup_group, if_neg h]

@[simp] theorem modGroup_pfe (s : State) (i : GroupNo) (f : Group → Group) (p : Port) :
    (s.modGroup i f).pfe p = s.pfe p := rfl

@[simp] theorem modGroup_port (s : State) (i : GroupNo) (f : Group → Group) (p : Port) :
    (s.modGroup i f).port p = s.port p := rfl

@[simp] theorem modGroup_record (s : State) (i : GroupNo) (f : Group → Group) (r : RecordIndex) :
    (s.modGroup i f).record r = s.record r := rfl

@[simp] theorem modGroup_message (s : State) (i : GroupNo) (f : Group → Group) (r : RecordIndex) :
    (s.modGroup i f).message r = s.message r := rfl

@[simp] theorem modGroup_handle (s : State) (i : GroupNo) (f : Group → Group) (r : RecordIndex) :
    (s.modGroup i f).handle r = s.handle r := rfl

@[simp] theorem modGroup_reservedTotal (s : State) (i : GroupNo) (f : Group → Group) :
    (s.modGroup i f).reservedTotal = s.reservedTotal := rfl

@[simp] theorem modGroup_freeList (s : State) (i : GroupNo) (f : Group → Group) :
    (s.modGroup i f).freeList = s.freeList := rfl

@[simp] theorem modGroup_pool (s : State) (i : GroupNo) (f : Group → Group) :
    (s.modGroup i f).pool = s.pool := rfl

@[simp] theorem modGroup_tickCount (s : State) (i : GroupNo) (f : Group → Group) :
    (s.modGroup i f).tickCount = s.tickCount := rfl

@[simp] theorem modGroup_ringNext (s : State) (i : GroupNo) (f : Group → Group) :
    (s.modGroup i f).ringNext = s.ringNext := rfl

@[simp] theorem modGroup_underway (s : State) (i : GroupNo) (f : Group → Group) :
    (s.modGroup i f).underway = s.underway := rfl

@[simp] theorem modGroup_pending (s : State) (i : GroupNo) (f : Group → Group) :
    (s.modGroup i f).pending = s.pending := rfl

/-! ### modRecord -/

@[simp] theorem modRecord_record_same (s : State) (i : RecordIndex) (f : TransitRecord → TransitRecord) :
    (s.modRecord i f).record i = f (s.record i) := by
  simp [State.modRecord, State.record]

theorem modRecord_record (s : State) (i : RecordIndex) (f : TransitRecord → TransitRecord) (j : RecordIndex) :
    (s.modRecord i f).record j = if i = j then f (s.record i) else s.record j := by
  simp [State.modRecord, State.record, Vector.getElem_set, Fin.ext_iff]

@[simp] theorem modRecord_record_ne (s : State) (i : RecordIndex) (f : TransitRecord → TransitRecord) (j : RecordIndex) (h : i ≠ j) :
    (s.modRecord i f).record j = s.record j := by
  rw [modRecord_record, if_neg h]

@[simp] theorem modRecord_pfe (s : State) (i : RecordIndex) (f : TransitRecord → TransitRecord) (p : Port) :
    (s.modRecord i f).pfe p = s.pfe p := rfl

@[simp] theorem modRecord_port (s : State) (i : RecordIndex) (f : TransitRecord → TransitRecord) (p : Port) :
    (s.modRecord i f).port p = s.port p := rfl

@[simp] theorem modRecord_group (s : State) (i : RecordIndex) (f : TransitRecord → TransitRecord) (g : GroupNo) :
    (s.modRecord i f).group g = s.group g := rfl

@[simp] theorem modRecord_reservedTotal (s : State) (i : RecordIndex) (f : TransitRecord → TransitRecord) :
    (s.modRecord i f).reservedTotal = s.reservedTotal := rfl

@[simp] theorem modRecord_freeList (s : State) (i : RecordIndex) (f : TransitRecord → TransitRecord) :
    (s.modRecord i f).freeList = s.freeList := rfl

@[simp] theorem modRecord_pool (s : State) (i : RecordIndex) (f : TransitRecord → TransitRecord) :
    (s.modRecord i f).pool = s.pool := rfl

@[simp] theorem modRecord_tickCount (s : State) (i : RecordIndex) (f : TransitRecord → TransitRecord) :
    (s.modRecord i f).tickCount = s.tickCount := rfl

@[simp] theorem modRecord_ringNext (s : State) (i : RecordIndex) (f : TransitRecord → TransitRecord) :
    (s.modRecord i f).ringNext = s.ringNext := rfl

@[simp] theorem modRecord_underway (s : State) (i : RecordIndex) (f : TransitRecord → TransitRecord) :
    (s.modRecord i f).underway = s.underway := rfl

@[simp] theorem modRecord_pending (s : State) (i : RecordIndex) (f : TransitRecord → TransitRecord) :
    (s.modRecord i f).pending = s.pending := rfl

/-! ### mapPfes -/

@[simp] theorem mapPfes_pfe (s : State) (f : Port → Pfe → Pfe) (i : Port) :
    (s.mapPfes f).pfe i = f i (s.pfe i) := by
  simp [State.mapPfes, State.pfe]

@[simp] theorem mapPfes_port (s : State) (f : Port → Pfe → Pfe) (p : Port) :
    (s.mapPfes f).port p = s.port p := by
  simp only [State.mapPfes, State.port]

@[simp] theorem mapPfes_group (s : State) (f : Port → Pfe → Pfe) (g : GroupNo) :
    (s.mapPfes f).group g = s.group g := by
  simp only [State.mapPfes, State.group]

@[simp] theorem mapPfes_record (s : State) (f : Port → Pfe → Pfe) (r : RecordIndex) :
    (s.mapPfes f).record r = s.record r := by
  simp only [State.mapPfes, State.record]

@[simp] theorem mapPfes_message (s : State) (f : Port → Pfe → Pfe) (r : RecordIndex) :
    (s.mapPfes f).message r = s.message r := by
  simp only [State.mapPfes, State.message, State.record]

@[simp] theorem mapPfes_handle (s : State) (f : Port → Pfe → Pfe) (r : RecordIndex) :
    (s.mapPfes f).handle r = s.handle r := by
  simp only [State.mapPfes, State.handle, State.record]

@[simp] theorem mapPfes_reservedTotal (s : State) (f : Port → Pfe → Pfe) :
    (s.mapPfes f).reservedTotal = s.reservedTotal := by
  simp only [State.mapPfes]

@[simp] theorem mapPfes_freeList (s : State) (f : Port → Pfe → Pfe) :
    (s.mapPfes f).freeList = s.freeList := by
  simp only [State.mapPfes]

@[simp] theorem mapPfes_pool (s : State) (f : Port → Pfe → Pfe) :
    (s.mapPfes f).pool = s.pool := by
  simp only [State.mapPfes]

@[simp] theorem mapPfes_tickCount (s : State) (f : Port → Pfe → Pfe) :
    (s.mapPfes f).tickCount = s.tickCount := by
  simp only [State.mapPfes]

@[simp] theorem mapPfes_ringNext (s : State) (f : Port → Pfe → Pfe) :
    (s.mapPfes f).ringNext = s.ringNext := by
  simp only [State.mapPfes]

@[simp] theorem mapPfes_underway (s : State) (f : Port → Pfe → Pfe) :
    (s.mapPfes f).underway = s.underway := by
  simp only [State.mapPfes]

@[simp] theorem mapPfes_pending (s : State) (f : Port → Pfe → Pfe) :
    (s.mapPfes f).pending = s.pending := by
  simp only [State.mapPfes]

/-! ### mapPorts -/

@[simp] theorem mapPorts_port (s : State) (f : Port → CorePort → CorePort) (i : Port) :
    (s.mapPorts f).port i = f i (s.port i) := by
  simp [State.mapPorts, State.port]

@[simp] theorem mapPorts_pfe (s : State) (f : Port → CorePort → CorePort) (p : Port) :
    (s.mapPorts f).pfe p = s.pfe p := by
  simp only [State.mapPorts, State.pfe]

@[simp] theorem mapPorts_group (s : State) (f : Port → CorePort → CorePort) (g : GroupNo) :
    (s.mapPorts f).group g = s.group g := by
  simp only [State.mapPorts, State.group]

@[simp] theorem mapPorts_record (s : State) (f : Port → CorePort → CorePort) (r : RecordIndex) :
    (s.mapPorts f).record r = s.record r := by
  simp only [State.mapPorts, State.record]

@[simp] theorem mapPorts_message (s : State) (f : Port → CorePort → CorePort) (r : RecordIndex) :
    (s.mapPorts f).message r = s.message r := by
  simp only [State.mapPorts, State.message, State.record]

@[simp] theorem mapPorts_handle (s : State) (f : Port → CorePort → CorePort) (r : RecordIndex) :
    (s.mapPorts f).handle r = s.handle r := by
  simp only [State.mapPorts, State.handle, State.record]

@[simp] theorem mapPorts_reservedTotal (s : State) (f : Port → CorePort → CorePort) :
    (s.mapPorts f).reservedTotal = s.reservedTotal := by
  simp only [State.mapPorts]

@[simp] theorem mapPorts_freeList (s : State) (f : Port → CorePort → CorePort) :
    (s.mapPorts f).freeList = s.freeList := by
  simp only [State.mapPorts]

@[simp] theorem mapPorts_pool (s : State) (f : Port → CorePort → CorePort) :
    (s.mapPorts f).pool = s.pool := by
  simp only [State.mapPorts]

@[simp] theorem mapPorts_tickCount (s : State) (f : Port → CorePort → CorePort) :
    (s.mapPorts f).tickCount = s.tickCount := by
  simp only [State.mapPorts]

@[simp] theorem mapPorts_ringNext (s : State) (f : Port → CorePort → CorePort) :
    (s.mapPorts f).ringNext = s.ringNext := by
  simp only [State.mapPorts]

@[simp] theorem mapPorts_underway (s : State) (f : Port → CorePort → CorePort) :
    (s.mapPorts f).underway = s.underway := by
  simp only [State.mapPorts]

@[simp] theorem mapPorts_pending (s : State) (f : Port → CorePort → CorePort) :
    (s.mapPorts f).pending = s.pending := by
  simp only [State.mapPorts]

/-! ### mapGroups -/

@[simp] theorem mapGroups_group (s : State) (f : GroupNo → Group → Group) (i : GroupNo) :
    (s.mapGroups f).group i = f i (s.group i) := by
  simp [State.mapGroups, State.group]

@[simp] theorem mapGroups_pfe (s : State) (f : GroupNo → Group → Group) (p : Port) :
    (s.mapGroups f).pfe p = s.pfe p := by
  simp only [State.mapGroups, State.pfe]

@[simp] theorem mapGroups_port (s : State) (f : GroupNo → Group → Group) (p : Port) :
    (s.mapGroups f).port p = s.port p := by
  simp only [State.mapGroups, State.port]

@[simp] theorem mapGroups_record (s : State) (f : GroupNo → Group → Group) (r : RecordIndex) :
    (s.mapGroups f).record r = s.record r := by
  simp only [State.mapGroups, State.record]

@[simp] theorem mapGroups_message (s : State) (f : GroupNo → Group → Group) (r : RecordIndex) :
    (s.mapGroups f).message r = s.message r := by
  simp only [State.mapGroups, State.message, State.record]

@[simp] theorem mapGroups_handle (s : State) (f : GroupNo → Group → Group) (r : RecordIndex) :
    (s.mapGroups f).handle r = s.handle r := by
  simp only [State.mapGroups, State.handle, State.record]

@[simp] theorem mapGroups_reservedTotal (s : State) (f : GroupNo → Group → Group) :
    (s.mapGroups f).reservedTotal = s.reservedTotal := by
  simp only [State.mapGroups]

@[simp] theorem mapGroups_freeList (s : State) (f : GroupNo → Group → Group) :
    (s.mapGroups f).freeList = s.freeList := by
  simp only [State.mapGroups]

@[simp] theorem mapGroups_pool (s : State) (f : GroupNo → Group → Group) :
    (s.mapGroups f).pool = s.pool := by
  simp only [State.mapGroups]

@[simp] theorem mapGroups_tickCount (s : State) (f : GroupNo → Group → Group) :
    (s.mapGroups f).tickCount = s.tickCount := by
  simp only [State.mapGroups]

@[simp] theorem mapGroups_ringNext (s : State) (f : GroupNo → Group → Group) :
    (s.mapGroups f).ringNext = s.ringNext := by
  simp only [State.mapGroups]

@[simp] theorem mapGroups_underway (s : State) (f : GroupNo → Group → Group) :
    (s.mapGroups f).underway = s.underway := by
  simp only [State.mapGroups]

@[simp] theorem mapGroups_pending (s : State) (f : GroupNo → Group → Group) :
    (s.mapGroups f).pending = s.pending := by
  simp only [State.mapGroups]

/-! ### mapRecords -/

@[simp] theorem mapRecords_record (s : State) (f : RecordIndex → TransitRecord → TransitRecord) (i : RecordIndex) :
    (s.mapRecords f).record i = f i (s.record i) := by
  simp [State.mapRecords, State.record]

@[simp] theorem mapRecords_pfe (s : State) (f : RecordIndex → TransitRecord → TransitRecord) (p : Port) :
    (s.mapRecords f).pfe p = s.pfe p := by
  simp only [State.mapRecords, State.pfe]

@[simp] theorem mapRecords_port (s : State) (f : RecordIndex → TransitRecord → TransitRecord) (p : Port) :
    (s.mapRecords f).port p = s.port p := by
  simp only [State.mapRecords, State.port]

@[simp] theorem mapRecords_group (s : State) (f : RecordIndex → TransitRecord → TransitRecord) (g : GroupNo) :
    (s.mapRecords f).group g = s.group g := by
  simp only [State.mapRecords, State.group]

@[simp] theorem mapRecords_reservedTotal (s : State) (f : RecordIndex → TransitRecord → TransitRecord) :
    (s.mapRecords f).reservedTotal = s.reservedTotal := by
  simp only [State.mapRecords]

@[simp] theorem mapRecords_freeList (s : State) (f : RecordIndex → TransitRecord → TransitRecord) :
    (s.mapRecords f).freeList = s.freeList := by
  simp only [State.mapRecords]

@[simp] theorem mapRecords_pool (s : State) (f : RecordIndex → TransitRecord → TransitRecord) :
    (s.mapRecords f).pool = s.pool := by
  simp only [State.mapRecords]

@[simp] theorem mapRecords_tickCount (s : State) (f : RecordIndex → TransitRecord → TransitRecord) :
    (s.mapRecords f).tickCount = s.tickCount := by
  simp only [State.mapRecords]

@[simp] theorem mapRecords_ringNext (s : State) (f : RecordIndex → TransitRecord → TransitRecord) :
    (s.mapRecords f).ringNext = s.ringNext := by
  simp only [State.mapRecords]

@[simp] theorem mapRecords_underway (s : State) (f : RecordIndex → TransitRecord → TransitRecord) :
    (s.mapRecords f).underway = s.underway := by
  simp only [State.mapRecords]

@[simp] theorem mapRecords_pending (s : State) (f : RecordIndex → TransitRecord → TransitRecord) :
    (s.mapRecords f).pending = s.pending := by
  simp only [State.mapRecords]

/-! ### setReserved -/

@[simp] theorem setReserved_pfe (s : State) (n : Nat) (p : Port) :
    (s.setReserved n).pfe p = s.pfe p := rfl

@[simp] theorem setReserved_port (s : State) (n : Nat) (p : Port) :
    (s.setReserved n).port p = s.port p := rfl

@[simp] theorem setReserved_group (s : State) (n : Nat) (g : GroupNo) :
    (s.setReserved n).group g = s.group g := rfl

@[simp] theorem setReserved_record (s : State) (n : Nat) (r : RecordIndex) :
    (s.setReserved n).record r = s.record r := rfl

@[simp] theorem setReserved_message (s : State) (n : Nat) (r : RecordIndex) :
    (s.setReserved n).message r = s.message r := rfl

@[simp] theorem setReserved_handle (s : State) (n : Nat) (r : RecordIndex) :
    (s.setReserved n).handle r = s.handle r := rfl

@[simp] theorem setReserved_reservedTotal (s : State) (n : Nat) :
    (s.setReserved n).reservedTotal = n := rfl

@[simp] theorem setReserved_freeList (s : State) (n : Nat) :
    (s.setReserved n).freeList = s.freeList := rfl

@[simp] theorem setReserved_pool (s : State) (n : Nat) :
    (s.setReserved n).pool = s.pool := rfl

@[simp] theorem setReserved_tickCount (s : State) (n : Nat) :
    (s.setReserved n).tickCount = s.tickCount := rfl

@[simp] theorem setReserved_ringNext (s : State) (n : Nat) :
    (s.setReserved n).ringNext = s.ringNext := rfl

@[simp] theorem setReserved_underway (s : State) (n : Nat) :
    (s.setReserved n).underway = s.underway := rfl

@[simp] theorem setReserved_pending (s : State) (n : Nat) :
    (s.setReserved n).pending = s.pending := rfl

/-! ### setFreeList -/

@[simp] theorem setFreeList_pfe (s : State) (bs : List Block) (p : Port) :
    (s.setFreeList bs).pfe p = s.pfe p := rfl

@[simp] theorem setFreeList_port (s : State) (bs : List Block) (p : Port) :
    (s.setFreeList bs).port p = s.port p := rfl

@[simp] theorem setFreeList_group (s : State) (bs : List Block) (g : GroupNo) :
    (s.setFreeList bs).group g = s.group g := rfl

@[simp] theorem setFreeList_record (s : State) (bs : List Block) (r : RecordIndex) :
    (s.setFreeList bs).record r = s.record r := rfl

@[simp] theorem setFreeList_message (s : State) (bs : List Block) (r : RecordIndex) :
    (s.setFreeList bs).message r = s.message r := rfl

@[simp] theorem setFreeList_handle (s : State) (bs : List Block) (r : RecordIndex) :
    (s.setFreeList bs).handle r = s.handle r := rfl

@[simp] theorem setFreeList_reservedTotal (s : State) (bs : List Block) :
    (s.setFreeList bs).reservedTotal = s.reservedTotal := rfl

@[simp] theorem setFreeList_freeList (s : State) (bs : List Block) :
    (s.setFreeList bs).freeList = bs := rfl

@[simp] theorem setFreeList_pool (s : State) (bs : List Block) :
    (s.setFreeList bs).pool = s.pool := rfl

@[simp] theorem setFreeList_tickCount (s : State) (bs : List Block) :
    (s.setFreeList bs).tickCount = s.tickCount := rfl

@[simp] theorem setFreeList_ringNext (s : State) (bs : List Block) :
    (s.setFreeList bs).ringNext = s.ringNext := rfl

@[simp] theorem setFreeList_underway (s : State) (bs : List Block) :
    (s.setFreeList bs).underway = s.underway := rfl

@[simp] theorem setFreeList_pending (s : State) (bs : List Block) :
    (s.setFreeList bs).pending = s.pending := rfl

/-! ### setPool -/

@[simp] theorem setPool_pfe (s : State) (m : Memory) (p : Port) :
    (s.setPool m).pfe p = s.pfe p := rfl

@[simp] theorem setPool_port (s : State) (m : Memory) (p : Port) :
    (s.setPool m).port p = s.port p := rfl

@[simp] theorem setPool_group (s : State) (m : Memory) (g : GroupNo) :
    (s.setPool m).group g = s.group g := rfl

@[simp] theorem setPool_record (s : State) (m : Memory) (r : RecordIndex) :
    (s.setPool m).record r = s.record r := rfl

@[simp] theorem setPool_message (s : State) (m : Memory) (r : RecordIndex) :
    (s.setPool m).message r = s.message r := rfl

@[simp] theorem setPool_handle (s : State) (m : Memory) (r : RecordIndex) :
    (s.setPool m).handle r = s.handle r := rfl

@[simp] theorem setPool_reservedTotal (s : State) (m : Memory) :
    (s.setPool m).reservedTotal = s.reservedTotal := rfl

@[simp] theorem setPool_freeList (s : State) (m : Memory) :
    (s.setPool m).freeList = s.freeList := rfl

@[simp] theorem setPool_pool (s : State) (m : Memory) :
    (s.setPool m).pool = m := rfl

@[simp] theorem setPool_tickCount (s : State) (m : Memory) :
    (s.setPool m).tickCount = s.tickCount := rfl

@[simp] theorem setPool_ringNext (s : State) (m : Memory) :
    (s.setPool m).ringNext = s.ringNext := rfl

@[simp] theorem setPool_underway (s : State) (m : Memory) :
    (s.setPool m).underway = s.underway := rfl

@[simp] theorem setPool_pending (s : State) (m : Memory) :
    (s.setPool m).pending = s.pending := rfl

/-! ### setTickCount -/

@[simp] theorem setTickCount_pfe (s : State) (n : Nat) (p : Port) :
    (s.setTickCount n).pfe p = s.pfe p := rfl

@[simp] theorem setTickCount_port (s : State) (n : Nat) (p : Port) :
    (s.setTickCount n).port p = s.port p := rfl

@[simp] theorem setTickCount_group (s : State) (n : Nat) (g : GroupNo) :
    (s.setTickCount n).group g = s.group g := rfl

@[simp] theorem setTickCount_record (s : State) (n : Nat) (r : RecordIndex) :
    (s.setTickCount n).record r = s.record r := rfl

@[simp] theorem setTickCount_message (s : State) (n : Nat) (r : RecordIndex) :
    (s.setTickCount n).message r = s.message r := rfl

@[simp] theorem setTickCount_handle (s : State) (n : Nat) (r : RecordIndex) :
    (s.setTickCount n).handle r = s.handle r := rfl

@[simp] theorem setTickCount_reservedTotal (s : State) (n : Nat) :
    (s.setTickCount n).reservedTotal = s.reservedTotal := rfl

@[simp] theorem setTickCount_freeList (s : State) (n : Nat) :
    (s.setTickCount n).freeList = s.freeList := rfl

@[simp] theorem setTickCount_pool (s : State) (n : Nat) :
    (s.setTickCount n).pool = s.pool := rfl

@[simp] theorem setTickCount_tickCount (s : State) (n : Nat) :
    (s.setTickCount n).tickCount = n := rfl

@[simp] theorem setTickCount_ringNext (s : State) (n : Nat) :
    (s.setTickCount n).ringNext = s.ringNext := rfl

@[simp] theorem setTickCount_underway (s : State) (n : Nat) :
    (s.setTickCount n).underway = s.underway := rfl

@[simp] theorem setTickCount_pending (s : State) (n : Nat) :
    (s.setTickCount n).pending = s.pending := rfl

/-! ### setArbiter -/

@[simp] theorem setArbiter_pfe (s : State) (k : Fin 13) (u : Option Port) (p : Port) :
    (s.setArbiter k u).pfe p = s.pfe p := rfl

@[simp] theorem setArbiter_port (s : State) (k : Fin 13) (u : Option Port) (p : Port) :
    (s.setArbiter k u).port p = s.port p := rfl

@[simp] theorem setArbiter_group (s : State) (k : Fin 13) (u : Option Port) (g : GroupNo) :
    (s.setArbiter k u).group g = s.group g := rfl

@[simp] theorem setArbiter_record (s : State) (k : Fin 13) (u : Option Port) (r : RecordIndex) :
    (s.setArbiter k u).record r = s.record r := rfl

@[simp] theorem setArbiter_message (s : State) (k : Fin 13) (u : Option Port) (r : RecordIndex) :
    (s.setArbiter k u).message r = s.message r := rfl

@[simp] theorem setArbiter_handle (s : State) (k : Fin 13) (u : Option Port) (r : RecordIndex) :
    (s.setArbiter k u).handle r = s.handle r := rfl

@[simp] theorem setArbiter_reservedTotal (s : State) (k : Fin 13) (u : Option Port) :
    (s.setArbiter k u).reservedTotal = s.reservedTotal := rfl

@[simp] theorem setArbiter_freeList (s : State) (k : Fin 13) (u : Option Port) :
    (s.setArbiter k u).freeList = s.freeList := rfl

@[simp] theorem setArbiter_pool (s : State) (k : Fin 13) (u : Option Port) :
    (s.setArbiter k u).pool = s.pool := rfl

@[simp] theorem setArbiter_tickCount (s : State) (k : Fin 13) (u : Option Port) :
    (s.setArbiter k u).tickCount = s.tickCount := rfl

@[simp] theorem setArbiter_ringNext (s : State) (k : Fin 13) (u : Option Port) :
    (s.setArbiter k u).ringNext = k := rfl

@[simp] theorem setArbiter_underway (s : State) (k : Fin 13) (u : Option Port) :
    (s.setArbiter k u).underway = u := rfl

@[simp] theorem setArbiter_pending (s : State) (k : Fin 13) (u : Option Port) :
    (s.setArbiter k u).pending = s.pending := rfl

/-! ### setPending -/

@[simp] theorem setPending_pfe (s : State) (cs : List Instr) (p : Port) :
    (s.setPending cs).pfe p = s.pfe p := rfl

@[simp] theorem setPending_port (s : State) (cs : List Instr) (p : Port) :
    (s.setPending cs).port p = s.port p := rfl

@[simp] theorem setPending_group (s : State) (cs : List Instr) (g : GroupNo) :
    (s.setPending cs).group g = s.group g := rfl

@[simp] theorem setPending_record (s : State) (cs : List Instr) (r : RecordIndex) :
    (s.setPending cs).record r = s.record r := rfl

@[simp] theorem setPending_message (s : State) (cs : List Instr) (r : RecordIndex) :
    (s.setPending cs).message r = s.message r := rfl

@[simp] theorem setPending_handle (s : State) (cs : List Instr) (r : RecordIndex) :
    (s.setPending cs).handle r = s.handle r := rfl

@[simp] theorem setPending_reservedTotal (s : State) (cs : List Instr) :
    (s.setPending cs).reservedTotal = s.reservedTotal := rfl

@[simp] theorem setPending_freeList (s : State) (cs : List Instr) :
    (s.setPending cs).freeList = s.freeList := rfl

@[simp] theorem setPending_pool (s : State) (cs : List Instr) :
    (s.setPending cs).pool = s.pool := rfl

@[simp] theorem setPending_tickCount (s : State) (cs : List Instr) :
    (s.setPending cs).tickCount = s.tickCount := rfl

@[simp] theorem setPending_ringNext (s : State) (cs : List Instr) :
    (s.setPending cs).ringNext = s.ringNext := rfl

@[simp] theorem setPending_underway (s : State) (cs : List Instr) :
    (s.setPending cs).underway = s.underway := rfl

@[simp] theorem setPending_pending (s : State) (cs : List Instr) :
    (s.setPending cs).pending = cs := rfl

/-! ### modMessage -/

@[simp] theorem modMessage_message_same (s : State) (r : RecordIndex) (f : Message → Message) :
    (s.modMessage r f).message r = (s.message r).map f := by
  simp [State.modMessage, State.message]

@[simp] theorem modMessage_message_ne (s : State) (i : RecordIndex) (f : Message → Message) (j : RecordIndex)
    (h : i ≠ j) : (s.modMessage i f).message j = s.message j := by
  simp [State.modMessage, State.message, h]

/-- An update of a message leaves every generation, and so every handle, as it is (R87). -/
@[simp] theorem modMessage_handle (s : State) (i : RecordIndex) (f : Message → Message) (j : RecordIndex) :
    (s.modMessage i f).handle j = s.handle j := by
  by_cases h : i = j
  · subst h; simp [State.modMessage, State.handle]
  · simp [State.modMessage, State.handle, h]

@[simp] theorem modMessage_port (s : State) (i : RecordIndex) (f : Message → Message) (p : Port) :
    (s.modMessage i f).port p = s.port p := rfl

@[simp] theorem modMessage_pfe (s : State) (i : RecordIndex) (f : Message → Message) (p : Port) :
    (s.modMessage i f).pfe p = s.pfe p := rfl

@[simp] theorem modMessage_group (s : State) (i : RecordIndex) (f : Message → Message) (g : GroupNo) :
    (s.modMessage i f).group g = s.group g := rfl

/-! ### Equality of states -/

/-- Two states are equal when every table agrees, read through the accessors. -/
theorem State.ext_accessors {s t : State} (hf : ∀ p, s.pfe p = t.pfe p) (hp : ∀ p, s.port p = t.port p)
    (hg : ∀ g, s.group g = t.group g) (hr : ∀ r, s.record r = t.record r)
    (h1 : s.reservedTotal = t.reservedTotal) (h2 : s.freeList = t.freeList) (h3 : s.pool = t.pool)
    (h4 : s.tickCount = t.tickCount) (h5 : s.ringNext = t.ringNext) (h6 : s.underway = t.underway)
    (h7 : s.pending = t.pending) : s = t := by
  cases s; cases t
  simp only [State.mk.injEq]
  refine ⟨Vector.ext fun i hi => ?_, Vector.ext fun i hi => ?_, Vector.ext fun i hi => ?_, h1,
    Vector.ext fun i hi => ?_, h2, h3, h4, h5, h6, h7⟩
  · exact hf ⟨i, hi⟩
  · exact hp ⟨i, hi⟩
  · exact hg ⟨i, hi⟩
  · exact hr ⟨i, hi⟩

end Sys2Proof.Machine.Laws
end

