-- ==== Sys2Proof/Laws/Arbiter.lean ====
section
/-! SUPPORT. The refresh, the checks in order, and what the taking of a command slot does: each said once. -/

namespace Sys2Proof.Machine.Laws

/-! ### The refresh (R159, R161) -/

@[simp] theorem refresh_port (s : State) (p : Port) :
    s.refresh.port p = { s.port p with summary := summaryOf (s.port p) } := by
  simp [State.refresh]

@[simp] theorem refresh_pfe (s : State) (p : Port) :
    s.refresh.pfe p = (s.pfe p).driveAtn (summaryOf (s.port p)) := by
  simp [State.refresh]

@[simp] theorem refresh_group (s : State) (g : GroupNo) : s.refresh.group g = s.group g := by
  simp [State.refresh]

@[simp] theorem refresh_record (s : State) (r : RecordIndex) : s.refresh.record r = s.record r := by
  simp [State.refresh]

@[simp] theorem refresh_message (s : State) (r : RecordIndex) : s.refresh.message r = s.message r := by
  simp [State.refresh]

@[simp] theorem refresh_handle (s : State) (r : RecordIndex) : s.refresh.handle r = s.handle r := by
  simp [State.refresh]

@[simp] theorem refresh_reservedTotal (s : State) : s.refresh.reservedTotal = s.reservedTotal := by
  simp [State.refresh]

@[simp] theorem refresh_freeList (s : State) : s.refresh.freeList = s.freeList := by
  simp [State.refresh]

@[simp] theorem refresh_pool (s : State) : s.refresh.pool = s.pool := by
  simp [State.refresh]

@[simp] theorem refresh_tickCount (s : State) : s.refresh.tickCount = s.tickCount := by
  simp [State.refresh]

@[simp] theorem refresh_ringNext (s : State) : s.refresh.ringNext = s.ringNext := by
  simp [State.refresh]

@[simp] theorem refresh_underway (s : State) : s.refresh.underway = s.underway := by
  simp [State.refresh]

@[simp] theorem refresh_pending (s : State) : s.refresh.pending = s.pending := by
  simp [State.refresh]

/-- A summary does not depend on the summary published before. -/
@[simp] theorem summaryOf_withSummary (c : CorePort) (m : Summary) :
    summaryOf { c with summary := m } = summaryOf c := rfl

/-- Driving ATNn changes nothing that attention is computed from. -/
@[simp] theorem attention_driveAtn (m k : Summary) (f : Pfe) : attention m (f.driveAtn k) = attention m f := rfl

/-! ### Checks in order -/

/-- All checks pass exactly when none fails. -/
theorem firstFail_none {cs : List (Bool × ResultCode)} : firstFail cs = none ↔ ∀ c ∈ cs, c.1 = false := by
  induction cs with
  | nil => simp [firstFail]
  | cons c rest ih =>
    obtain ⟨b, code⟩ := c
    cases b <;> simp [firstFail, ih]

/-- The code of the first check that fails is one of the list's. -/
theorem firstFail_mem {cs : List (Bool × ResultCode)} {code : ResultCode} (h : firstFail cs = some code) :
    (true, code) ∈ cs := by
  induction cs with
  | nil => simp [firstFail] at h
  | cons c rest ih =>
    obtain ⟨b, k⟩ := c
    cases b
    · exact List.mem_cons_of_mem _ (ih (by simpa [firstFail] using h))
    · simp only [firstFail, if_true, Option.some.injEq] at h
      simp [h]

/-- A command that fails a check changes no table, and its reply is the code alone (R171). -/
theorem judged_refused {s : State} {cs : List (Bool × ResultCode)} {effect : CoreResult} {code : ResultCode}
    (h : firstFail cs = some code) : judged s cs effect = .ok (s, [code.byte]) := by
  simp [judged, h, refuse]

/-- A command that passes every check has its effect. -/
theorem judged_passed {s : State} {cs : List (Bool × ResultCode)} {effect : CoreResult}
    (h : firstFail cs = none) : judged s cs effect = effect := by
  simp [judged, h]

/-- A judged command answers its refusal or its effect. -/
theorem judged_cases {s t : State} {reply : List Byte} {cs : List (Bool × ResultCode)} {effect : CoreResult}
    (h : judged s cs effect = .ok (t, reply)) :
    (∃ code, firstFail cs = some code ∧ t = s ∧ reply = [code.byte]) ∨
      (firstFail cs = none ∧ effect = .ok (t, reply)) := by
  cases hc : firstFail cs with
  | none => exact .inr ⟨rfl, by rwa [judged_passed hc] at h⟩
  | some code =>
    rw [judged_refused hc] at h
    simp only [Except.ok.injEq, Prod.mk.injEq] at h
    exact .inl ⟨code, rfl, h.1.symm, h.2.symm⟩

/-! ### The taking of a command slot -/

/-- The state after the taking of port p's request, whose effect gave the tables `t` and the reply. -/
abbrev afterTaking (p : Port) (t : State) (reply : List Byte) : State :=
  ((t.modPfe p (Pfe.writeReply reply)).granted (.command p)).refresh

/-- A granted request is taken whole (R150, R151). -/
theorem takeCommand_taken {p : Port} {req : Request} {effect : State → CoreResult} {s t : State}
    {reply : List Byte} (h : s.takes p req = true) (he : effect s = .ok (t, reply)) :
    takeCommand p req effect s = .next (afterTaking p t reply) := by
  simp only [takeCommand, h, if_true, he, afterTaking]

/-- A request that the arbiter does not grant is not taken (log entry 2). -/
theorem takeCommand_idle {p : Port} {req : Request} {effect : State → CoreResult} {s : State}
    (h : s.takes p req = false) : takeCommand p req effect s = .next s := by
  simp [takeCommand, h]

/-- Everything the taking of a command slot can answer as a next state. -/
theorem takeCommand_cases {p : Port} {req : Request} {effect : State → CoreResult} {s u : State}
    (h : takeCommand p req effect s = .next u) :
    (s.takes p req = false ∧ u = s) ∨
      (s.takes p req = true ∧ ∃ t reply, effect s = .ok (t, reply) ∧ u = afterTaking p t reply) := by
  cases ht : s.takes p req with
  | false =>
    rw [takeCommand_idle ht] at h
    exact .inl ⟨rfl, by cases h; rfl⟩
  | true =>
    cases he : effect s with
    | error f => simp [takeCommand, ht, he] at h
    | ok out =>
      obtain ⟨t, reply⟩ := out
      rw [takeCommand_taken ht he] at h
      exact .inr ⟨rfl, t, reply, rfl, by cases h; rfl⟩

/-- What a granted request is: the slot holds it, and no tick taking is in progress. -/
theorem takes_iff {s : State} {p : Port} {req : Request} :
    s.takes p req = true ↔ s.grant = some (.command p) ∧ (s.pfe p).slot = some req := by
  simp [State.takes]

/-- After a taking the port's reply store holds the reply and its slot is empty (R151). -/
theorem afterTaking_slot (p : Port) (t : State) (reply : List Byte) :
    ((afterTaking p t reply).pfe p).replyStore = reply ∧ ((afterTaking p t reply).pfe p).slot = none := by
  simp only [afterTaking, State.granted, refresh_pfe, setArbiter_pfe, modPfe_pfe_same, Pfe.writeReply]
  split <;> exact ⟨rfl, rfl⟩

/-- The other ports' PFEs see only ATNn follow its causes. -/
theorem afterTaking_other (p q : Port) (h : p ≠ q) (t : State) (reply : List Byte) :
    (afterTaking p t reply).pfe q = (t.pfe q).driveAtn (summaryOf (t.port q)) := by
  simp [afterTaking, State.granted, h]

end Sys2Proof.Machine.Laws
end

