-- ==== Sys2Proof/Laws/Frontend.lean ====
section
/-! SUPPORT. What an event of a PFE reaches, and the completion of a byte state by state. -/

namespace Sys2Proof.Machine.Laws

/-! ### The reach of an event -/

/-- The PFE after an event at its port. -/
@[simp] theorem pfeEvent_pfe_same (p : Port) (act : Summary → Pfe → Pfe) (s : State) :
    (pfeEvent p act s).pfe p = (act (s.port p).summary (s.pfe p)).driveAtn (s.port p).summary := by
  simp [pfeEvent]

/-- The PFEs are independent of one another (chapter 8). -/
@[simp] theorem pfeEvent_pfe_ne (p : Port) (act : Summary → Pfe → Pfe) (s : State) (q : Port) (h : p ≠ q) :
    (pfeEvent p act s).pfe q = s.pfe q := by
  simp [pfeEvent, h]

@[simp] theorem pfeEvent_port (p : Port) (act : Summary → Pfe → Pfe) (s : State) (q : Port) :
    (pfeEvent p act s).port q = s.port q := rfl

@[simp] theorem pfeEvent_group (p : Port) (act : Summary → Pfe → Pfe) (s : State) (g : GroupNo) :
    (pfeEvent p act s).group g = s.group g := rfl

@[simp] theorem pfeEvent_record (p : Port) (act : Summary → Pfe → Pfe) (s : State) (r : RecordIndex) :
    (pfeEvent p act s).record r = s.record r := rfl

@[simp] theorem pfeEvent_message (p : Port) (act : Summary → Pfe → Pfe) (s : State) (r : RecordIndex) :
    (pfeEvent p act s).message r = s.message r := rfl

@[simp] theorem pfeEvent_handle (p : Port) (act : Summary → Pfe → Pfe) (s : State) (r : RecordIndex) :
    (pfeEvent p act s).handle r = s.handle r := rfl

@[simp] theorem pfeEvent_reservedTotal (p : Port) (act : Summary → Pfe → Pfe) (s : State) :
    (pfeEvent p act s).reservedTotal = s.reservedTotal := rfl

@[simp] theorem pfeEvent_freeList (p : Port) (act : Summary → Pfe → Pfe) (s : State) :
    (pfeEvent p act s).freeList = s.freeList := rfl

@[simp] theorem pfeEvent_pool (p : Port) (act : Summary → Pfe → Pfe) (s : State) :
    (pfeEvent p act s).pool = s.pool := rfl

@[simp] theorem pfeEvent_tickCount (p : Port) (act : Summary → Pfe → Pfe) (s : State) :
    (pfeEvent p act s).tickCount = s.tickCount := rfl

@[simp] theorem pfeEvent_ringNext (p : Port) (act : Summary → Pfe → Pfe) (s : State) :
    (pfeEvent p act s).ringNext = s.ringNext := rfl

@[simp] theorem pfeEvent_underway (p : Port) (act : Summary → Pfe → Pfe) (s : State) :
    (pfeEvent p act s).underway = s.underway := rfl

@[simp] theorem pfeEvent_pending (p : Port) (act : Summary → Pfe → Pfe) (s : State) :
    (pfeEvent p act s).pending = s.pending := rfl

/-- A row's byte event happens whole or not at all (log entries 2 and 3). -/
theorem byteEventIf_cases (p : Port) (case : Pfe → Bool) (b : Byte) (s : State) :
    (case (s.pfe p).idleFault = true ∧ byteEventIf p case b s = byteEvent p b s) ∨
      (case (s.pfe p).idleFault = false ∧ byteEventIf p case b s = s) := by
  unfold byteEventIf
  cases h : case (s.pfe p).idleFault <;> simp

/-! ### Idle faults and the fault latch -/

/-- Where no idle fault is due, nothing happens. -/
theorem idleFault_notDue {f : Pfe} (h : f.idleDue = false) : f.idleFault = f := by
  simp [Pfe.idleFault, h]

/-- After an idle fault has had its turn, none is due. -/
theorem idleFault_idempotent (f : Pfe) : f.idleFault.idleFault = f.idleFault := by
  cases h : f.idleDue with
  | false => rw [idleFault_notDue h, idleFault_notDue h]
  | true =>
    have ht : f.idleFault.txn = .discard := by simp only [Pfe.idleFault, h, if_true]
    exact idleFault_notDue (by simp [Pfe.idleDue, Pfe.receiving, ht])

/-- The first fault is kept as the code (R153). -/
theorem recordFault_first {f : Pfe} (code : FaultCode) (h : f.fault.code = .clear) :
    (f.recordFault code).fault = ⟨code, f.fault.more⟩ := by
  simp [Pfe.recordFault, h]

/-- A further fault keeps the code and sets MORE (R153). -/
theorem recordFault_further {f : Pfe} (code : FaultCode) (h : f.fault.code ≠ .clear) :
    (f.recordFault code).fault = ⟨f.fault.code, true⟩ := by
  simp [Pfe.recordFault, h]

/-- A fault touches the fault latch alone. -/
theorem recordFault_slot (code : FaultCode) (f : Pfe) :
    (f.recordFault code).slot = f.slot ∧ (f.recordFault code).replyStore = f.replyStore ∧
      (f.recordFault code).mask = f.mask := ⟨rfl, rfl, rfl⟩

/-! ### The completion of a byte -/

/-- A port that is not selected, or whose select is ignored, completes no byte. -/
theorem byte_idle (m : Summary) (b : Byte) {f : Pfe} (h : f.txn = .idle) : f.byte m b = f := by
  have hd : f.idleFault = f := idleFault_notDue (by simp [Pfe.idleDue, Pfe.receiving, h])
  simp [Pfe.byte, hd, h]

/-- In REPLY a byte shifts the next reply byte, or 00h, and sets the idle-select counter to 0 (R145, R147). -/
theorem byte_reply (m : Summary) (b : Byte) {f : Pfe} (h : f.txn = .reply) :
    f.byte m b =
      { f with idleCount := 0, sdo := some (f.replyRest.headD 0x00), replyRest := f.replyRest.tail } := by
  have hd : f.idleFault = f := idleFault_notDue (by simp [Pfe.idleDue, Pfe.receiving, h])
  simp [Pfe.byte, hd, h, Pfe.acceptByte, Pfe.nextOut]

/-- In AWAIT a byte shifts FFh and changes no state (R145, R147). -/
theorem byte_await (m : Summary) (b : Byte) {f : Pfe} (h : f.txn = .await) :
    f.byte m b = { f with idleCount := 0, sdo := some 0xFF } := by
  have hd : f.idleFault = f := idleFault_notDue (by simp [Pfe.idleDue, Pfe.receiving, h])
  simp [Pfe.byte, hd, h, Pfe.acceptByte, Pfe.nextOut]

/-- In DISCARD a byte shifts FFh and changes no state (R145, R147). -/
theorem byte_discard (m : Summary) (b : Byte) {f : Pfe} (h : f.txn = .discard) :
    f.byte m b = { f with idleCount := 0, sdo := some 0xFF } := by
  have hd : f.idleFault = f := idleFault_notDue (by simp [Pfe.idleDue, Pfe.receiving, h])
  simp [Pfe.byte, hd, h, Pfe.acceptByte, Pfe.nextOut]

/-- A command byte, where no idle fault is due. -/
theorem byte_cmd (m : Summary) (b : Byte) {f : Pfe} (h : f.txn = .cmd) (hd : f.idleDue = false) :
    f.byte m b = ({ f with idleCount := 0 }.commandByte m b).nextOut := by
  simp [Pfe.byte, idleFault_notDue hd, h, Pfe.acceptByte]

/-- A parameter byte, where no idle fault is due. -/
theorem byte_param (m : Summary) (b : Byte) {f : Pfe} (h : f.txn = .param) (hd : f.idleDue = false) :
    f.byte m b = ({ f with idleCount := 0 }.parameterByte m b).nextOut := by
  simp [Pfe.byte, idleFault_notDue hd, h, Pfe.acceptByte]

/-- A payload byte, where no idle fault is due. -/
theorem byte_payload (m : Summary) (b : Byte) {f : Pfe} (h : f.txn = .payload) (hd : f.idleDue = false) :
    f.byte m b = ({ f with idleCount := 0 }.payloadByte m b).nextOut := by
  simp [Pfe.byte, idleFault_notDue hd, h, Pfe.acceptByte]

end Sys2Proof.Machine.Laws
end

