-- ==== Sys2Proof/Laws/Memory.lean ====
section
/-! SUPPORT. The basic laws of the pool's memory: read after write, and that every memory operation keeps the
canonical form `Memory.wf`. -/

namespace Sys2Proof.Machine.Laws

/-- An address below every listed one reads as unwritten. -/
theorem read_below (m : Memory) (a : Nat) (h : ∀ c ∈ m, a < c.1) : Memory.read m a = Config.unwrittenByte := by
  induction m with
  | nil => rfl
  | cons x rest ih =>
    obtain ⟨k, v⟩ := x
    have hk : a < k := h (k, v) (by simp)
    have : k ≠ a := by omega
    simp [Memory.read, this, ih fun c hc => h c (by simp [hc])]

/-- A write leaves every other address as it was. -/
theorem read_write_other (m : Memory) (a c : Nat) (b : Byte) (h : c ≠ a) :
    Memory.read (Memory.write m a b) c = Memory.read m c := by
  induction m with
  | nil =>
    by_cases hb : b = Config.unwrittenByte
    · simp [Memory.write, hb]
    · simp only [Memory.write, if_neg hb, Memory.read, if_neg h.symm]
  | cons x rest ih =>
    obtain ⟨k, v⟩ := x
    unfold Memory.write
    split
    · split
      · rfl
      · simp [Memory.read, h.symm]
    · split
      · rename_i hak
        subst hak
        split <;> simp [Memory.read, h.symm]
      · simp only [Memory.read, ih]

/-- A read after a write to the same address gives the byte written. -/
theorem read_write_same (m : Memory) (a : Nat) (b : Byte) (h : Memory.wf m) :
    Memory.read (Memory.write m a b) a = b := by
  obtain ⟨hs, -⟩ := h
  induction m with
  | nil =>
    by_cases hb : b = Config.unwrittenByte
    · simp [Memory.write, hb, Memory.read]
    · simp only [Memory.write, if_neg hb, Memory.read, if_true]
  | cons x rest ih =>
    obtain ⟨k, v⟩ := x
    rw [List.pairwise_cons] at hs
    unfold Memory.write
    split
    · rename_i hlt
      split
      · rename_i hb
        rw [hb]
        refine read_below _ _ fun c hc => ?_
        rcases List.mem_cons.1 hc with rfl | hc
        · exact hlt
        · exact hlt.trans (hs.1 c hc)
      · simp [Memory.read]
    · split
      · rename_i hak
        subst hak
        split
        · rename_i hb
          rw [hb]
          exact read_below _ _ fun c hc => hs.1 c hc
        · simp [Memory.read]
      · rename_i hne
        simp [Memory.read, Ne.symm hne, ih hs.2]

/-- Every cell of a memory after a write is an old cell or the one written. -/
theorem mem_write (m : Memory) (a : Nat) (b : Byte) (c : Host.Cell) (h : c ∈ Memory.write m a b) :
    c ∈ m ∨ (c = (a, b) ∧ b ≠ Config.unwrittenByte) := by
  induction m with
  | nil =>
    unfold Memory.write at h
    split at h
    · simp at h
    · rename_i hb; exact .inr ⟨by simpa using h, hb⟩
  | cons x rest ih =>
    obtain ⟨k, v⟩ := x
    unfold Memory.write at h
    split at h
    · split at h
      · exact .inl h
      · rename_i hb
        rcases List.mem_cons.1 h with rfl | h
        · exact .inr ⟨rfl, hb⟩
        · exact .inl h
    · split at h
      · split at h
        · exact .inl (List.mem_cons_of_mem _ h)
        · rename_i hb
          rcases List.mem_cons.1 h with rfl | h
          · exact .inr ⟨rfl, hb⟩
          · exact .inl (List.mem_cons_of_mem _ h)
      · rcases List.mem_cons.1 h with rfl | h
        · exact .inl (by simp)
        · exact (ih h).imp (List.mem_cons_of_mem _) id

/-- A write inside the pool keeps the canonical form. -/
theorem write_wf (m : Memory) (a : Nat) (b : Byte) (ha : a < Config.poolBytes) (h : Memory.wf m) :
    Memory.wf (Memory.write m a b) := by
  refine ⟨?_, fun c hc => ?_⟩
  · obtain ⟨hs, -⟩ := h
    induction m with
    | nil => unfold Memory.write; split <;> simp
    | cons x rest ih =>
      obtain ⟨k, v⟩ := x
      have hs' := List.pairwise_cons.1 hs
      unfold Memory.write
      split
      · rename_i hlt
        split
        · exact hs
        · refine List.pairwise_cons.2 ⟨fun c hc => ?_, hs⟩
          rcases List.mem_cons.1 hc with rfl | hc
          · exact hlt
          · exact hlt.trans (hs'.1 c hc)
      · rename_i hge
        split
        · rename_i hak
          subst hak
          split
          · exact hs'.2
          · exact List.pairwise_cons.2 ⟨hs'.1, hs'.2⟩
        · rename_i hne
          refine List.pairwise_cons.2 ⟨fun c hc => ?_, ih hs'.2⟩
          rcases mem_write rest a b c hc with hc | ⟨rfl, -⟩
          · exact hs'.1 c hc
          · show k < a
            omega
  · rcases mem_write m a b c hc with hc | ⟨rfl, hb⟩
    · exact h.2 c hc
    · exact ⟨ha, hb⟩

/-- A place in a chain is an address of the pool. -/
theorem chainAddress_lt {chain : List Block} {i a : Nat} (h : chainAddress chain i = some a) :
    a < Config.poolBytes := by
  unfold chainAddress at h
  obtain ⟨b, -, rfl⟩ := Option.map_eq_some_iff.1 h
  have := b.isLt
  have : i % Config.blockBytes < 32 := Nat.mod_lt _ (by decide)
  simp only [Config.blockBytes, Config.poolBytes] at *
  omega

/-- Copy-in keeps the canonical form (R33). -/
theorem copyIn_wf (chain : List Block) (payload : List Byte) (i : Nat) (m : Memory) (h : Memory.wf m) :
    Memory.wf (copyIn chain i payload m) := by
  induction payload generalizing i m with
  | nil => exact h
  | cons b rest ih =>
    refine ih (i + 1) _ ?_
    split
    · rename_i a ha; exact write_wf m a b (chainAddress_lt ha) h
    · exact h

/-- Copy-out gives as many bytes as are asked for (R35, R36). -/
@[simp] theorem copyOut_length (m : Memory) (chain : List Block) (offset count : Nat) :
    (copyOut m chain offset count).length = count := by simp [copyOut]

end Sys2Proof.Machine.Laws
end

