-- ==== Sys2Proof/Laws/Settle.lean ====
section
/-! SUPPORT. What the shared operations of a taking leave as it is: each says once everything outside its reach. -/

namespace Sys2Proof.Machine.Laws

/-- `t` differs from `s` in the core's tables alone: no PFE, no pool byte, not the tick slot, the arbiter or the queue
of commands; no port's state and no published summary. -/
structure CoreOnly (s t : State) : Prop where
  pfe       : ∀ p, t.pfe p = s.pfe p
  pool      : t.pool = s.pool
  tickCount : t.tickCount = s.tickCount
  ringNext  : t.ringNext = s.ringNext
  underway  : t.underway = s.underway
  pending   : t.pending = s.pending
  portState : ∀ p, (t.port p).portState = (s.port p).portState
  summary   : ∀ p, (t.port p).summary = (s.port p).summary

theorem CoreOnly.refl (s : State) : CoreOnly s s :=
  ⟨fun _ => rfl, rfl, rfl, rfl, rfl, rfl, fun _ => rfl, fun _ => rfl⟩

theorem CoreOnly.trans {s t u : State} (h : CoreOnly s t) (k : CoreOnly t u) : CoreOnly s u :=
  ⟨fun p => (k.pfe p).trans (h.pfe p), k.pool.trans h.pool, k.tickCount.trans h.tickCount,
    k.ringNext.trans h.ringNext, k.underway.trans h.underway, k.pending.trans h.pending,
    fun p => (k.portState p).trans (h.portState p), fun p => (k.summary p).trans (h.summary p)⟩

/-- A fold of operations that stay within the core's tables stays within them. -/
theorem CoreOnly.foldl {α : Type} {f : State → α → State} (hf : ∀ s a, CoreOnly s (f s a)) (l : List α) (s : State) :
    CoreOnly s (l.foldl f s) := by
  induction l generalizing s with
  | nil => exact CoreOnly.refl s
  | cons a l ih => exact (hf s a).trans (ih (f s a))

/-- An update of one port's queues, lists and latches stays within the core's tables. -/
theorem CoreOnly.modPort (s : State) (p : Port) (f : CorePort → CorePort)
    (h1 : ∀ c, (f c).portState = c.portState) (h2 : ∀ c, (f c).summary = c.summary) :
    CoreOnly s (s.modPort p f) := by
  refine ⟨fun _ => rfl, rfl, rfl, rfl, rfl, rfl, fun q => ?_, fun q => ?_⟩ <;>
  · by_cases h : p = q
    · subst h; simp [h1, h2]
    · simp [h]

theorem CoreOnly.modGroup (s : State) (g : GroupNo) (f : Group → Group) : CoreOnly s (s.modGroup g f) :=
  ⟨fun _ => rfl, rfl, rfl, rfl, rfl, rfl, fun _ => rfl, fun _ => rfl⟩

theorem CoreOnly.modRecord (s : State) (r : RecordIndex) (f : TransitRecord → TransitRecord) :
    CoreOnly s (s.modRecord r f) :=
  ⟨fun _ => rfl, rfl, rfl, rfl, rfl, rfl, fun _ => rfl, fun _ => rfl⟩

theorem CoreOnly.modMessage (s : State) (r : RecordIndex) (f : Message → Message) : CoreOnly s (s.modMessage r f) :=
  CoreOnly.modRecord s r _

theorem CoreOnly.setReserved (s : State) (n : Nat) : CoreOnly s (s.setReserved n) :=
  ⟨fun _ => rfl, rfl, rfl, rfl, rfl, rfl, fun _ => rfl, fun _ => rfl⟩

theorem CoreOnly.setFreeList (s : State) (bs : List Block) : CoreOnly s (s.setFreeList bs) :=
  ⟨fun _ => rfl, rfl, rfl, rfl, rfl, rfl, fun _ => rfl, fun _ => rfl⟩

/-! ### Roster notices and group states -/

/-- The port's tables after a roster notice (R8). -/
theorem notifyRoster_port (s : State) (m : PortSet) (but : Option Port) (p : Port) :
    (s.notifyRoster m but).port p =
      if PortSet.has m p && but != some p then { s.port p with roster := true } else s.port p := by
  simp [State.notifyRoster]

theorem notifyRoster_coreOnly (s : State) (m : PortSet) (but : Option Port) : CoreOnly s (s.notifyRoster m but) := by
  refine ⟨fun p => ?_, ?_, ?_, ?_, ?_, ?_, fun p => ?_, fun p => ?_⟩
  · simp [State.notifyRoster]
  · simp [State.notifyRoster]
  · simp [State.notifyRoster]
  · simp [State.notifyRoster]
  · simp [State.notifyRoster]
  · simp [State.notifyRoster]
  · rw [notifyRoster_port]; split <;> rfl
  · rw [notifyRoster_port]; split <;> rfl

theorem freeGroup_coreOnly (s : State) (g : GroupNo) (closer : Option Port) : CoreOnly s (s.freeGroup g closer) :=
  ((CoreOnly.setReserved s _).trans (notifyRoster_coreOnly _ _ _)).trans (CoreOnly.modGroup _ _ _)

theorem freeIfDone_coreOnly (s : State) (g : GroupNo) (closer : Option Port) : CoreOnly s (s.freeIfDone g closer) := by
  unfold State.freeIfDone
  split
  · exact freeGroup_coreOnly s g closer
  · exact CoreOnly.refl s

theorem enterClosing_coreOnly (s : State) (g : GroupNo) (cause : Port) (closer : Option Port) :
    CoreOnly s (s.enterClosing g cause closer) :=
  ((CoreOnly.modGroup s _ _).trans (notifyRoster_coreOnly _ _ _)).trans (freeIfDone_coreOnly _ _ _)

/-! ### One target -/

theorem setTarget_coreOnly (s : State) (r : RecordIndex) (p : Port) (o : TargetOutcome) (code : Byte) :
    CoreOnly s (s.setTarget r p o code) := CoreOnly.modMessage s r _

theorem dropDelivery_coreOnly (s : State) (r : RecordIndex) (p : Port) : CoreOnly s (s.dropDelivery r p) :=
  CoreOnly.modPort s p _ (fun _ => rfl) fun _ => rfl

theorem dropHeld_coreOnly (s : State) (r : RecordIndex) (p : Port) : CoreOnly s (s.dropHeld r p) :=
  CoreOnly.modPort s p _ (fun _ => rfl) fun _ => rfl

/-- Everything `settle` can do: nothing, or the removal from the queue or the held list with the outcome set. -/
theorem settle_cases (s : State) (r : RecordIndex) (p : Port) (o : TargetOutcome) (code : Byte) :
    s.settle r p o code = s ∨ s.settle r p o code = (s.dropDelivery r p).setTarget r p o code ∨
      s.settle r p o code = (s.dropHeld r p).setTarget r p o code := by
  unfold State.settle
  split
  · exact .inr (.inl rfl)
  · exact .inr (.inr rfl)
  · exact .inl rfl

theorem settle_coreOnly (s : State) (r : RecordIndex) (p : Port) (o : TargetOutcome) (code : Byte) :
    CoreOnly s (s.settle r p o code) := by
  rcases settle_cases s r p o code with h | h | h <;> rw [h]
  · exact CoreOnly.refl s
  · exact (dropDelivery_coreOnly s r p).trans (setTarget_coreOnly _ _ _ _ _)
  · exact (dropHeld_coreOnly s r p).trans (setTarget_coreOnly _ _ _ _ _)

/-! ### The close of a record -/

theorem closeEntry_coreOnly (s : State) (retiring : Option Port) (r : RecordIndex) (m : Message) :
    CoreOnly s (s.closeEntry retiring r m) := by
  unfold State.closeEntry
  split
  · exact CoreOnly.refl s
  · split <;> exact CoreOnly.modPort s _ _ (fun _ => rfl) fun _ => rfl

theorem releaseCharge_coreOnly (s : State) (m : Message) : CoreOnly s (s.releaseCharge m) :=
  (CoreOnly.modGroup s _ _).trans (freeIfDone_coreOnly _ _ _)

/-- The close of a record that tracks a message, step by step (R103). -/
theorem closeRecord_some {s : State} {r : RecordIndex} {m : Message} (h : s.message r = some m)
    (retiring : Option Port) :
    s.closeRecord retiring r =
      (((s.closeEntry retiring r m).freeChain m.chain).releaseCharge m).modRecord r TransitRecord.retire := by
  simp [State.closeRecord, h]

theorem closeRecord_coreOnly (s : State) (retiring : Option Port) (r : RecordIndex) :
    CoreOnly s (s.closeRecord retiring r) := by
  cases h : s.message r with
  | none => simp only [State.closeRecord, h]; exact CoreOnly.refl s
  | some m =>
    rw [closeRecord_some h]
    exact (((closeEntry_coreOnly s retiring r m).trans (CoreOnly.setFreeList _ _)).trans
      (releaseCharge_coreOnly _ m)).trans (CoreOnly.modRecord _ r _)

/-- The check of R91: the record closes exactly when it tracks a message with no open target. -/
theorem closeIfSettled_cases (s : State) (retiring : Option Port) (r : RecordIndex) :
    s.closeIfSettled retiring r = s ∨
      (∃ m, s.message r = some m ∧ m.hasOpenTarget = false ∧
        s.closeIfSettled retiring r = s.closeRecord retiring r) := by
  unfold State.closeIfSettled
  cases h : s.message r with
  | none => exact .inl rfl
  | some m =>
    cases ho : m.hasOpenTarget with
    | true => exact .inl (by simp [ho])
    | false => exact .inr ⟨m, rfl, ho, by simp [ho]⟩

theorem closeIfSettled_coreOnly (s : State) (retiring : Option Port) (r : RecordIndex) :
    CoreOnly s (s.closeIfSettled retiring r) := by
  rcases closeIfSettled_cases s retiring r with h | ⟨m, -, -, h⟩ <;> rw [h]
  · exact CoreOnly.refl s
  · exact closeRecord_coreOnly s retiring r

/-! ### Withdrawal -/

theorem withdraw_coreOnly (s : State) (retiring : Option Port) (r : RecordIndex) (p : Port) :
    CoreOnly s (s.withdraw retiring r p) := by
  unfold State.withdraw
  split
  · exact (settle_coreOnly s r p _ _).trans (closeIfSettled_coreOnly _ _ _)
  · exact CoreOnly.refl s

theorem withdrawAll_coreOnly (s : State) (retiring : Option Port) (p : Port) (rs : List RecordIndex) :
    CoreOnly s (s.withdrawAll retiring p rs) :=
  CoreOnly.foldl (fun t r => withdraw_coreOnly t retiring r p) rs s

theorem withdrawGroup_coreOnly (s : State) (p : Port) (g : GroupNo) : CoreOnly s (s.withdrawGroup p g) :=
  withdrawAll_coreOnly s none p _

end Sys2Proof.Machine.Laws
end

