-- ==== Sys2Proof/Laws/Statements.lean ====
section
/-! SUPPORT. The words that the statements use beside the machine's own operations: where the two say the same, one
lemma says so, so that a proof can pass from one to the other. -/

namespace Sys2Proof.Machine.Laws

/-- The latch after a recorded fault (R153). -/
theorem recordFault_fault (code : FaultCode) (f : Pfe) : (f.recordFault code).fault = f.fault.after code := by
  simp only [Pfe.recordFault, FaultLatch.after]

/-- An idle-select fault is due exactly at 4 ticks in CMD, PARAM or PAYLOAD (R155). -/
theorem idleDue_iff (f : Pfe) :
    f.idleDue = true ↔ (f.txn = .cmd ∨ f.txn = .param ∨ f.txn = .payload) ∧ f.idleCount = 4 := by
  simp [Pfe.idleDue, Pfe.receiving, Config.idleLimit, or_assoc]

/-- Recording a fault that is due, as the statements write it out (R153, R155). -/
theorem idleRecorded_eq_idleFault (f : Pfe) : f.idleRecorded = f.idleFault := by
  cases hd : f.idleDue with
  | false =>
    have h : ¬ ((f.txn = .cmd ∨ f.txn = .param ∨ f.txn = .payload) ∧ f.idleCount = 4) := by
      rw [← idleDue_iff, hd]; simp
    rw [idleFault_notDue hd, Pfe.idleRecorded, if_neg h]
  | true =>
    rw [Pfe.idleRecorded, if_pos ((idleDue_iff f).1 hd), Pfe.idleFault, hd, if_pos rfl]
    cases hm : f.stagingMarked <;>
      simp [Pfe.recordFault, Pfe.releaseIfMarked, Pfe.dropCommand, FaultLatch.after, hm]

/-- The message with one outcome set. -/
theorem withOutcome_eq_setTarget (m : Message) (p : Port) (o : TargetOutcome) (code : Byte) :
    m.withOutcome p o code = m.setTarget p o code := rfl

/-- The completion of a message (R104). -/
theorem completionBy_eq_completionOf (m : Message) : completionBy m = completionOf m := by
  simp [completionBy, completionOf, verdictOf]

end Sys2Proof.Machine.Laws
end

