-- ==== Sys2Proof/Laws/Takings.lean ====
section
/-! SUPPORT. What the effects of the core's commands leave as it is, command by command, over Laws/Settle.lean. -/

namespace Sys2Proof.Machine.Laws

/-! ### Group commands -/

theorem openEffect_coreOnly (p : Port) (g q sr jr dl : Byte) (s : State) :
    CoreOnly s (openEffect p g q sr jr dl s) := (CoreOnly.setReserved s _).trans (CoreOnly.modGroup _ _ _)

theorem resizeEffect_coreOnly (g q : Byte) (s : State) : CoreOnly s (resizeEffect g q s) :=
  (CoreOnly.setReserved s _).trans (CoreOnly.modGroup _ _ _)

theorem notifyPort_coreOnly (s : State) (p q : Port) : CoreOnly s (s.notifyPort p q) := by
  unfold State.notifyPort
  split
  · exact CoreOnly.refl s
  · exact CoreOnly.modPort s q _ (fun _ => rfl) fun _ => rfl

/-- The effect of LEAVE (R17). -/
theorem leave_coreOnly (p : Port) (g : GroupNo) (s : State) :
    CoreOnly s ((s.removeMember g p).withdrawGroup p g) :=
  (CoreOnly.modGroup s _ _).trans (withdrawGroup_coreOnly _ _ _)

/-- The effect of EXPEL (R21). -/
theorem expel_coreOnly (p q : Port) (g : GroupNo) (s : State) :
    CoreOnly s (((s.removeMember g q).notifyPort p q).withdrawGroup q g) :=
  ((CoreOnly.modGroup s _ _).trans (notifyPort_coreOnly _ _ _)).trans (withdrawGroup_coreOnly _ _ _)

/-! ### SEND -/

/-- Adding a target stays within the core's tables (R53, R54). -/
theorem addTarget_coreOnly (r : RecordIndex) (cls : MsgClass) (confirm : Bool) (s : State) (q : Port) :
    CoreOnly s (State.addTarget r cls confirm s q) := by
  refine (CoreOnly.modPort s q _ (fun c => ?_) fun c => ?_).trans (CoreOnly.modMessage _ r _) <;> split <;> rfl

theorem commitTargets_coreOnly (p : Port) (g tag flags : Byte) (r : RecordIndex) (s : State) :
    CoreOnly s (commitTargets p g tag flags r s) := by
  unfold commitTargets
  refine (CoreOnly.foldl (addTarget_coreOnly r _ _) _ s).trans (CoreOnly.modPort _ p _ ?_ ?_) <;> intro c <;> rfl

/-- The pool after the commit's record has been filled (R33). -/
theorem commitRecord_pool (p : Port) (g tag flags len dl : Byte) (r : RecordIndex) (s : State) :
    (commitRecord p g tag flags len dl r s).pool =
      copyIn (s.freeList.take (blocksFor len.toNat)) 0 ((s.pfe p).staging.take len.toNat) s.pool := rfl

/-- The pool after a commit: copy-in is the only write to it (R33). -/
theorem commit_pool (p : Port) (g tag flags len dl : Byte) (r : RecordIndex) (s : State) :
    (commit p g tag flags len dl r s).1.pool =
      copyIn (s.freeList.take (blocksFor len.toNat)) 0 ((s.pfe p).staging.take len.toNat) s.pool := by
  simp only [commit]
  rw [(closeIfSettled_coreOnly _ _ _).pool, (commitTargets_coreOnly _ _ _ _ _ _).pool, commitRecord_pool]

/-- A commit leaves every PFE as it is; the release of the staging buffer is the taking's (R148). -/
theorem commit_pfe (p : Port) (g tag flags len dl : Byte) (r : RecordIndex) (s : State) (q : Port) :
    (commit p g tag flags len dl r s).1.pfe q = s.pfe q := by
  simp only [commit]
  rw [(closeIfSettled_coreOnly _ _ _).pfe, (commitTargets_coreOnly _ _ _ _ _ _).pfe]
  rfl

/-! ### FETCH, ACK, NACK, TAKE, CLEAR NOTICES -/

theorem fetchConfirmed_coreOnly (p : Port) (h : Handle) (s : State) : CoreOnly s (fetchConfirmed p h s) := by
  unfold fetchConfirmed State.dropHead
  refine ((CoreOnly.modPort s p _ ?_ ?_).trans (CoreOnly.modPort _ p _ ?_ ?_)).trans (setTarget_coreOnly _ _ _ _ _)
    <;> intro c <;> rfl

theorem fetchUnconfirmed_coreOnly (p : Port) (h : Handle) (s : State) : CoreOnly s (fetchUnconfirmed p h s) := by
  unfold fetchUnconfirmed State.dropHead
  refine ((CoreOnly.modPort s p _ ?_ ?_).trans (setTarget_coreOnly _ _ _ _ _)).trans (closeIfSettled_coreOnly _ _ _)
    <;> intro c <;> rfl

theorem answer_coreOnly (p : Port) (h : Handle) (o : TargetOutcome) (code : Byte) (s : State) :
    CoreOnly s (answer p h o code s) := by
  unfold answer
  refine (CoreOnly.modPort s p _ ?_ ?_).trans (setTarget_coreOnly _ _ _ _ _) <;> intro c <;> rfl

theorem ackEffect_coreOnly (p : Port) (code : Byte) (h : Handle) (s : State) : CoreOnly s (ackEffect p code h s) :=
  (answer_coreOnly p h _ code s).trans (closeIfSettled_coreOnly _ _ _)

theorem stopMessage_coreOnly (s : State) (r : RecordIndex) : CoreOnly s (s.stopMessage r) :=
  (CoreOnly.modMessage s r _).trans (CoreOnly.foldl (fun t q => settle_coreOnly t r q _ _) _ _)

theorem nackEffect_coreOnly (p : Port) (code : Byte) (h : Handle) (s : State) :
    CoreOnly s (nackEffect p code h s) := by
  refine (answer_coreOnly p h .refused code s).trans (CoreOnly.trans ?_ (closeIfSettled_coreOnly _ none h.index))
  split
  · exact stopMessage_coreOnly _ _
  · exact CoreOnly.refl _

theorem clearNoticesEffect_coreOnly (p : Port) (choice : Byte) (s : State) :
    CoreOnly s (clearNoticesEffect p choice s) := by
  unfold clearNoticesEffect
  split
  · exact CoreOnly.refl s
  · exact CoreOnly.modPort s p _ (fun _ => rfl) fun _ => rfl

/-! ### Expiry -/

theorem missIfQueued_coreOnly (s : State) (r : RecordIndex) (q : Port) : CoreOnly s (s.missIfQueued r q) := by
  unfold State.missIfQueued
  split
  · exact CoreOnly.modPort s q _ (fun _ => rfl) fun _ => rfl
  · exact CoreOnly.refl s

/-- The expiry of a record stays within the core's tables (R100). -/
theorem expire_coreOnly (s : State) (r : RecordIndex) : CoreOnly s (s.expire r) :=
  (CoreOnly.foldl (fun t q => (missIfQueued_coreOnly t r q).trans (settle_coreOnly _ r q _ _)) _ s).trans
    (closeIfSettled_coreOnly _ _ _)

/-! ### Retirement -/

theorem retireTargets_coreOnly (s : State) (p : Port) : CoreOnly s (s.retireTargets p) :=
  (withdrawAll_coreOnly s _ p _).trans (withdrawAll_coreOnly _ _ p _)

theorem retireMemberships_coreOnly (s : State) (p : Port) : CoreOnly s (s.retireMemberships p) := by
  refine ⟨fun q => ?_, ?_, ?_, ?_, ?_, ?_, fun q => ?_, fun q => ?_⟩ <;> simp [State.retireMemberships]

theorem loseAnchor_coreOnly (p : Port) (s : State) (g : GroupNo) : CoreOnly s (State.loseAnchor p s g) := by
  unfold State.loseAnchor
  split
  · simp only
    split
    · exact (CoreOnly.modGroup s g _).trans (enterClosing_coreOnly _ _ _ _)
    · exact CoreOnly.modGroup s g _
  · exact CoreOnly.refl s

theorem endMessage_coreOnly (p : Port) (s : State) (r : RecordIndex) : CoreOnly s (State.endMessage p s r) := by
  unfold State.endMessage
  split
  · exact CoreOnly.foldl (fun t q => withdraw_coreOnly t _ r q) _ s
  · exact CoreOnly.refl s

/-- Steps 1 to 5 of a retirement stay within the core's tables and change no port's state (R133, R137). -/
theorem retire_beforeState_coreOnly (s : State) (p : Port) :
    CoreOnly s (((((s.retireTargets p).retireMemberships p).retireAnchorships p).retireMessages p).retireSends p) := by
  refine ((((retireTargets_coreOnly s p).trans (retireMemberships_coreOnly _ p)).trans
    (CoreOnly.foldl (loseAnchor_coreOnly p) _ _)).trans (CoreOnly.foldl (endMessage_coreOnly p) _ _)).trans
      (CoreOnly.modPort _ p _ ?_ ?_) <;> intro c <;> rfl

/-- A retirement touches no PFE (R137). -/
@[simp] theorem retire_pfe (s : State) (p q : Port) (final : PortState) : (s.retire p final).pfe q = s.pfe q := by
  rw [State.retire, State.setPortState, modPort_pfe, (retire_beforeState_coreOnly s p).pfe]

/-- A retirement writes no byte of the pool (R34). -/
@[simp] theorem retire_pool (s : State) (p : Port) (final : PortState) : (s.retire p final).pool = s.pool := by
  rw [State.retire, State.setPortState, modPort_pool, (retire_beforeState_coreOnly s p).pool]

/-- A retirement ends the port in its final state and leaves every other port's state (R137). -/
theorem retire_portState (s : State) (p q : Port) (final : PortState) :
    ((s.retire p final).port q).portState = if p = q then final else (s.port q).portState := by
  rw [State.retire, State.setPortState, modPort_port]
  split
  · rfl
  · exact (retire_beforeState_coreOnly s p).portState q

end Sys2Proof.Machine.Laws
end

