-- ==== Sys2Proof/Tests/Slice0.lean ====
section
/-! SUPPORT. The author's own tests: ill-formed terms, the encodings of chapter 10, one step of each family on small
states, and for each statement a state that meets its hypotheses (the witness theorems). -/

namespace Sys2Proof.Machine.Tests

set_option Elab.async false


/-! ## Small states -/

/-- A port that is ACTIVE and holds nothing. -/
def activePort : CorePort :=
  { CorePort.reset with portState := .active, summary := { Summary.reset with portState := .active } }

/-- Group 0 with six ACTIVE ports. -/
def station : Group := { Group.station with members := Vector.replicate 6 true }

/-- A group of ports 0, 1 and 2, anchored by port 0. -/
def team : Group :=
  { state := .opened, anchor := some 0, members := #v[true, true, true, false, false, false],
    senderRule := some .anyMember, joinRule := some .freeJoin, quota := 20, used := 0, inFlight := 0,
    defaultDeadline := 30 }

/-- Six ACTIVE ports, with group 1 open. -/
def hub : State :=
  { State.reset with
    ports := Vector.replicate 6 activePort
    groups := ((Vector.replicate 40 Group.freed).set 0 station).set 1 team
    reservedTotal := 36 }

/-- The state with the PFE of a port changed. -/
def front (p : Port) (f : Pfe → Pfe) (s : State) : State := s.modPfe p f

/-- A port in CMD. -/
def inCmd (s : State) : State := front 0 (fun f => { f with sel := true, txn := .cmd, sdo := some 0x80 }) s

/-- A port receiving the parameters of a command. -/
def inParam (c : CommandCode) (kept : List Byte) (left : Nat) (s : State) : State :=
  front 0 (fun f => { f with sel := true, txn := .param, command := some c, params := kept, toCome := left }) s

/-- A port whose request the arbiter grants next, waiting in AWAIT. -/
def posted (p : Port) (req : Request) (s : State) : State :=
  { front p (fun f => { f with sel := true, txn := .await, slot := some req }) s with
    ringNext := (Slot.command p).position }

/-- A port with a payload staged. -/
def staged (p : Port) (bytes : List Byte) (s : State) : State :=
  front p (fun f => { f with staging := bytes, stagingInUse := true }) s

/-- The next state of an outcome. -/
def after (o : Host.Outcome State Fault Refusal) : State :=
  match o with
  | .next t => t
  | .fault _ => State.reset
  | .refused _ => State.reset

/-- Port 0 about to SEND two bytes to group 1, confirmed and to stop on refusal, tag 9. -/
def sendHub : State := posted 0 (.send 1 9 0x05 2 0) (staged 0 [0xAA, 0xBB] hub)

/-- That message in flight to ports 1 and 2. -/
def sent : State := after (exec (.send 0 1 9 0x05 2 0) sendHub)

/-- Port 1 holds it. -/
def held : State := after (exec (.fetch 1) (posted 1 .fetch sent))

/-- Port 0 about to SEND one unconfirmed byte to group 1, tag 7. -/
def tellHub : State := posted 0 (.send 1 7 0x00 1 5) (staged 0 [0x55] hub)

/-- That message in flight to ports 1 and 2. -/
def told : State := after (exec (.send 0 1 7 0x00 1 5) tellHub)

/-- Port 3 alone in group 2, about to SEND a confirmed byte that reaches no one. -/
def aloneHub : State :=
  posted 3 (.send 2 4 0x01 1 1) (staged 3 [0x11]
    (hub.modGroup 2 fun _ => { team with anchor := some 3, members := #v[false, false, false, true, false, false] }))

/-- Its completion waiting at port 3. -/
def alone : State := after (exec (.send 3 2 4 0x01 1 1) aloneHub)

/-! ## Well-formedness -/

theorem test_unknown_of_defined_code_is_ill_formed : Instr.wellFormed (.unknownCommand 0 0x00) = false := by decide +kernel
theorem test_unknown_of_undefined_code_is_well_formed : Instr.wellFormed (.unknownCommand 0 0x08) = true := by decide +kernel

/-! ## Encodings -/

/-- The 24 codes of 10 section 10.1, and no others, are defined. -/
theorem test_defined_codes :
    ((List.range 256).filter fun n => (decodeCommand (BitVec.ofNat 8 n)).isSome) =
      [0x00, 0x01, 0x02, 0x03, 0x04, 0x05, 0x06, 0x07, 0x10, 0x11, 0x12, 0x13, 0x14, 0x15, 0x16, 0x17, 0x18, 0x19,
       0x20, 0x21, 0x22, 0x23, 0x24, 0x25] := by decide +kernel

/-- The rows give no bits. -/
theorem test_no_word_spells_a_command : decodeTableWord 8 0x20 = none := by decide +kernel

/-- The parameter bytes of the worked SEND of 10 section 10.6, in their places. -/
theorem test_worked_send_parameters :
    requestOf .send [0x04, 0x05, 0x07, 0x14, 0x00] = some (.send 0x04 0x05 0x07 0x14 0x00) ∧
      payloadBytes .send [0x04, 0x05, 0x07, 0x14, 0x00] = 20 ∧ classOf 0x07 = .urgent ∧ flagConfirm 0x07 = true ∧
      flagStopOnRefusal 0x07 = true ∧ flagLoopback 0x07 = false := by decide +kernel

theorem test_flags_without_confirm_are_bad : badFlags 0x04 = true ∧ badFlags 0x10 = true ∧ badFlags 0x0F = false := by
  decide +kernel

/-- An ACTIVE port with nothing waiting shows ATTACHED alone. -/
theorem test_status_byte_of_active_port : statusByte (hub.port 0).summary (hub.pfe 0) = 0x80 := by decide +kernel

/-- A port with one NORMAL delivery shows ATTACHED and DELIVERY. -/
theorem test_status_byte_with_delivery : statusByte (sent.port 1).summary (sent.pfe 1) = 0xC0 := by decide +kernel

/-! ## After hub reset -/

theorem test_reset_memory_is_canonical : Memory.wf State.reset.pool := by decide +kernel
theorem test_reset_reserves_station_quota : State.reset.reservedTotal = 16 ∧ State.reset.freeList.length = 128 := by
  decide +kernel

/-! ## One step of each family -/

theorem test_select_shifts_status_byte : ((after (exec (.select 0 false) hub)).pfe 0).sdo = some 0x80 := by decide +kernel
theorem test_select_of_absent_port_is_ignored : ((after (exec (.select 0 true) State.reset)).pfe 0).txn = .idle := by
  decide +kernel
theorem test_deselect_in_param_is_short_command :
    ((after (exec (.deselect 0) (inParam .join [] 1 hub))).pfe 0).fault = ⟨.shortCommand, false⟩ := by decide +kernel
theorem test_byte_posts_join :
    ((after (exec (.byteCompletion 0 0x01) (inParam .join [] 1 hub))).pfe 0).slot = some (.join 0x01) := by decide +kernel
theorem test_command_post_of_fetch :
    ((after (exec (.commandPost 0 0x21) (inCmd hub))).pfe 0).txn = .await := by decide +kernel
theorem test_busy_while_slot_is_occupied :
    ((after (exec (.commandPost 0 0x21)
      (inCmd (front 0 (fun f => { f with slot := some .take }) hub)))).pfe 0).sdo = some 0x17 := by decide +kernel
theorem test_unknown_command_faults :
    ((after (exec (.unknownCommand 0 0xFF) (inCmd hub))).pfe 0).fault = ⟨.unknownCommand, false⟩ := by decide +kernel
theorem test_nop_answers_ok : ((after (exec (.nop 0) (inCmd hub))).pfe 0).sdo = some 0x00 := by decide +kernel
theorem test_status_reply :
    ((after (exec (.status 0) (inCmd hub))).pfe 0).shortReply = [0, 2, 0, 0, 0, 0, 0, 0, 0, 0, 0, 0, 0] := by decide +kernel
theorem test_clear_fault :
    ((after (exec (.clearFault 0)
      (inCmd (front 0 (fun f => { f with fault := ⟨.idleSelect, true⟩ }) hub)))).pfe 0).fault = ⟨.clear, false⟩ := by
  decide +kernel
theorem test_set_mask_asserts_attention :
    ((after (exec (.setMask 0 0x02) (inParam .setMask [] 1
      (front 0 id (hub.modPort 0 fun c => { c with summary := { c.summary with waiting := 1 } }))))).pfe 0).atn = true := by
  decide +kernel
theorem test_set_mask_bad_param :
    ((after (exec (.setMask 0 0x10) (inParam .setMask [] 1 hub))).pfe 0).sdo = some 0x02 := by decide +kernel
theorem test_recall_of_empty_store : ((after (exec (.recall 0 false) (inCmd hub))).pfe 0).sdo = some 0x13 := by decide +kernel
theorem test_recall_holds_slot_off :
    (after (exec (.recall 0 false) (inCmd (front 0 (fun f => { f with slot := some .take }) hub)))).grant = none := by
  decide +kernel
theorem test_idle_select_after_four_ticks :
    ((after (exec (.idleSelect 0) (front 0 (fun f => { f with idleCount := 4 }) (inCmd hub)))).pfe 0).fault =
      ⟨.idleSelect, false⟩ := by decide +kernel
theorem test_second_agreeing_sample_is_accepted :
    ((after (exec (.tick (Vector.replicate 6 true))
      (front 0 (fun f => { f with filter := ⟨true, false⟩ }) State.reset))).pfe 0).presence = ⟨false, true, true⟩ := by
  decide +kernel
theorem test_attach :
    ((after (exec (.attach 0) (posted 0 .attach (hub.modPort 0 fun c => { c with portState := .detached })))).pfe
      0).replyStore = [0x00] := by decide +kernel
theorem test_attach_of_active_port :
    ((after (exec (.attach 0) (posted 0 .attach hub))).pfe 0).replyStore = [0x16] := by decide +kernel
theorem test_detach_withdraws_the_port :
    ((after (exec (.detach 1) (posted 1 .detach sent))).message 0).map (fun m => m.outcomeOf 1) =
      some (some .withdrawn) := by decide +kernel
theorem test_clear_notices_bad_choice :
    ((after (exec (.clearNotices 0 0x00) (posted 0 (.clearNotices 0x00) hub))).pfe 0).replyStore = [0x02] := by decide +kernel
theorem test_open : ((after (exec (.openGroup 4 2 112 0 1 250) (posted 4 (.openGroup 2 112 0 1 250) hub))).pfe
    4).replyStore = [0x0E] := by decide +kernel
theorem test_close_frees_empty_group :
    ((after (exec (.close 0 1) (posted 0 (.close 1) hub))).group 1) = Group.freed := by decide +kernel
theorem test_join : ((after (exec (.join 3 1) (posted 3 (.join 1) hub))).pfe 3).replyStore = [0x00] := by decide +kernel
theorem test_leave_withdraws : ((after (exec (.leave 1 1) (posted 1 (.leave 1) sent))).port 1).queue = [] := by decide +kernel
theorem test_enrol_sets_roster_latch :
    ((after (exec (.enrol 0 1 4) (posted 0 (.enrol 1 4) hub))).port 4).roster = true := by decide +kernel
theorem test_expel_of_held_message_leaves_it :
    ((after (exec (.expel 0 1 1) (posted 0 (.expel 1 1) held))).port 1).held = [⟨0, 0⟩] := by decide +kernel
theorem test_resize_below_use :
    ((after (exec (.resize 0 1 1) (posted 0 (.resize 1 1)
      (hub.modGroup 1 fun e => { e with used := 2 })))).pfe 0).replyStore = [0x10] := by decide +kernel
theorem test_group_info :
    ((after (exec (.groupInfo 5 1) (posted 5 (.groupInfo 1) hub))).pfe 5).replyStore =
      [0, 1, 0, 0, 0, 20, 0, 0, 30, 3, 0, 1, 2] := by decide +kernel
theorem test_roster : ((after (exec (.roster 0) (posted 0 .roster hub))).pfe 0).replyStore = [0, 2, 0, 1, 1, 3] := by
  decide +kernel
theorem test_pool_info :
    ((after (exec (.poolInfo 0) (posted 0 .poolInfo hub))).pfe 0).replyStore = [0, 128, 36, 92] := by decide +kernel
theorem test_send_reply : (sent.pfe 0).replyStore = [0, 0, 0, 2] := by decide +kernel
theorem test_send_fills_first_block : Memory.read sent.pool 0 = 0xAA ∧ Memory.read sent.pool 1 = 0xBB := by decide +kernel
theorem test_fetch_reply : (held.pfe 1).replyStore = [0, 0, 0, 0, 1, 1, 0, 2, 0, 30, 0xAA, 0xBB] := by decide +kernel
theorem test_read_second_byte :
    ((after (exec (.read 1 0 0 1 9) (posted 1 (.read 0 0 1 9) held))).pfe 1).replyStore = [0, 1, 0xBB] := by decide +kernel
theorem test_ack_of_stale_handle :
    ((after (exec (.ack 1 0 1 0) (posted 1 (.ack 0 1 0) held))).pfe 1).replyStore = [0x15] := by decide +kernel
theorem test_nack_stops_message :
    ((after (exec (.nack 1 0 0 0x21) (posted 1 (.nack 0 0 0x21) held))).port 0).doneOrder = [9] := by decide +kernel
theorem test_take_of_no_targets :
    ((after (exec (.take 3) (posted 3 .take alone))).pfe 3).replyStore = [0, 4, 2, 3, 0] := by decide +kernel
theorem test_tick_taking_lowers_remaining :
    ((after (exec .tickTaking { sent with tickCount := 7 })).message 0).map (fun m => m.remaining) = some 23 := by
  decide +kernel
theorem test_expiry_sets_missed_latch :
    ((after (exec (.recordExpiry 0) (after (exec .tickTaking { told with tickCount := 5 })))).port 2).missed = true := by
  decide +kernel
theorem test_presence_report_retires :
    ((after (exec (.presenceReport 0) (front 0 (fun f => { f with presence := ⟨true, false, true⟩ })
      { sent with ringNext := 1 }))).port 0).portState = .absent := by decide +kernel

/-! ## Witnesses: the hypotheses of each statement are met -/

theorem witness_queue : hub.pending = [] ∧ step hub = .next hub := ⟨by decide +kernel, rfl⟩
theorem witness_select : (hub.pfe 0).sel = false ∧ (hub.port 0).summary.portState ≠ .absent := by decide +kernel
theorem witness_select_ignored :
    (State.reset.port 0).summary.portState = .absent ∧ ((inCmd hub).pfe 0).sel = true := by decide +kernel
theorem witness_deselect : ((inCmd hub).pfe 0).sel = true ∧ ((inCmd hub).pfe 0).idleDue = false := by decide +kernel
theorem witness_command_byte :
    ((inCmd hub).pfe 0).idleDue = false ∧ ((inCmd hub).pfe 0).txn = .cmd ∧
      decodeCommand 0x12 = some ⟨0x12, .join, true, 1⟩ ∧ decodeCommand 0x20 = some ⟨0x20, .send, true, 5⟩ := by decide +kernel
theorem witness_parameter_byte :
    ((inParam .ack [] 2 hub).pfe 0).idleDue = false ∧ ((inParam .ack [] 2 hub).pfe 0).txn = .param ∧
      ((inParam .ack [] 2 hub).pfe 0).command.isSome = true ∧ 2 ≤ ((inParam .ack [] 2 hub).pfe 0).toCome := by decide +kernel
theorem witness_last_parameter_of_send :
    ((inParam .send [1, 9, 0, 1] 1 hub).pfe 0).txn = .param ∧ ((inParam .send [1, 9, 0, 1] 1 hub).pfe 0).toCome = 1 ∧
      (([1, 9, 0, 1] : List Byte) ++ [0])[3]? = some 1 := by decide +kernel

/-- A port receiving the payload of a SEND of the given length. -/
def inPayload (left : Nat) (len : Byte) : State :=
  front 0 (fun f => { f with txn := .payload, stagingInUse := true, stagingMarked := true, staging := [] })
    (inParam .send [1, 9, 0, len, 0] left hub)

theorem witness_payload_byte :
    ((inPayload 2 2).pfe 0).idleDue = false ∧ ((inPayload 2 2).pfe 0).txn = .payload ∧
      ((inPayload 2 2).pfe 0).command.isSome = true ∧ 2 ≤ ((inPayload 2 2).pfe 0).toCome := by decide +kernel
theorem witness_later_bytes :
    ((posted 0 .take hub).pfe 0).txn = .await ∧ ((after (exec (.status 0) (inCmd hub))).pfe 0).txn = .reply ∧
      ((after (exec (.status 0) (inCmd hub))).pfe 0).replyRest.length = 12 ∧
      ((after (exec (.nop 0) (inCmd hub))).pfe 0).replyRest = [] ∧ (hub.pfe 0).txn = .idle ∧
      ((after (exec (.unknownCommand 0 0x08) (inCmd hub))).pfe 0).txn = .discard := by decide +kernel
theorem witness_unknown_codes :
    ∀ b ∈ ([0x08, 0x0F, 0x1A, 0x1F, 0x26, 0xFF] : List Byte), decodeCommand b = none ∧
      ((0x08 ≤ b.toNat ∧ b.toNat ≤ 0x0F) ∨ (0x1A ≤ b.toNat ∧ b.toNat ≤ 0x1F) ∨ 0x26 ≤ b.toNat) := by decide +kernel
theorem witness_named_byte_events :
    ((inParam .setMask [] 1 hub).pfe 0).txn = .param ∧ ((inParam .setMask [] 1 hub).pfe 0).toCome = 1 ∧
      ((inParam .setMask [] 1 hub).pfe 0).params = [] ∧ ((inParam .setMask [] 1 hub).pfe 0).idleDue = false ∧
      Pfe.completesCore 0x21 ((inCmd hub).pfe 0) = true ∧
      Pfe.completesCore 0x01 ((inParam .join [] 1 hub).pfe 0) = true := by decide +kernel
theorem witness_command_byte_posted :
    ((inCmd hub).pfe 0).stagingMarked = false ∧ ((inCmd hub).pfe 0).slot = none ∧
      ((inCmd (posted 0 .take hub)).pfe 0).slot ≠ none := by decide +kernel
theorem witness_last_byte_posted :
    requestOf .join [0x01] = some (.join 0x01) ∧ ((inParam .join [] 1 hub).pfe 0).command = some .join ∧
      requestOf .send [1, 9, 0, 0, 0] = some (.send 1 9 0 0 0) ∧
      ((inParam .send [1, 9, 0, 0] 1 hub).pfe 0).command = some .send ∧
      ((inPayload 1 1).pfe 0).txn = .payload ∧ ((inPayload 1 1).pfe 0).toCome = 1 ∧
      requestOf .send ((inPayload 1 1).pfe 0).params = some (.send 1 9 0 1 0) := by decide +kernel
theorem witness_recall_granted :
    (inCmd (posted 0 .take hub)).grant = some (.command 0) ∧ ((inCmd (posted 0 .take hub)).pfe 0).txn = .cmd ∧
      ((inCmd (posted 1 .fetch held)).pfe 1).replyStore.length = 12 := by decide +kernel

/-- A RECALL that found a taking in progress: the slot it names holds its request. -/
theorem witness_underway :
    let t := after (exec (.recall 0 true) (inCmd (posted 0 .take hub)))
    t.underway = some 0 ∧ UnderwayLaw t ∧ t.grant = some (.command 0) := by decide +kernel
theorem witness_idle_due :
    ((front 0 (fun f => { f with idleCount := 4 }) (inCmd hub)).pfe 0).idleDue = true := by decide +kernel
theorem witness_tick : ∀ p : Port, (hub.pfe p).idleDue = false := by decide +kernel
/-- A TICK at a port whose idle-select fault is due records it first. -/
theorem test_tick_records_due_fault :
    ((after (exec (.tick (Vector.replicate 6 false))
      (front 0 (fun f => { f with idleCount := 4 }) (inCmd hub)))).pfe 0).fault = ⟨.idleSelect, false⟩ := by
  decide +kernel
theorem witness_arbiter :
    (posted 2 .take hub).midTick = false ∧ (posted 2 .take hub).underway = none ∧
      (posted 2 .take hub).grant = some (.command 2) ∧
      { posted 2 .take hub with underway := some 4 : State }.grant = some (.command 4) := by decide +kernel

/-- Ports 0 and 1 both waiting, port 0 first. -/
def twoWaiting : State := posted 0 .take (posted 1 .fetch sent)

theorem witness_waiter :
    twoWaiting.takes 0 .take = true ∧ twoWaiting.underway = none ∧ twoWaiting.requests (.command 1) = true := by
  decide +kernel

/-- The slot just granted is twelve places away; the one the arbiter goes on from is at no distance. -/
theorem witness_distances :
    (Slot.position (.command 0) - { twoWaiting with ringNext := 1 : State }.ringNext).val = 12 ∧
      { twoWaiting with ringNext := 1 : State }.requests (.command 0) = true ∧
      (Slot.position (.command 0) - twoWaiting.ringNext).val = 0 ∧ twoWaiting.grant = some (.command 0) := by
  decide +kernel

/-- A presence slot and the tick slot are granted while command slot 1 waits. -/
theorem witness_waiter_at_other_slots :
    (front 3 (fun f => { f with presence := ⟨true, false, true⟩ }) { twoWaiting with ringNext := 7 }).grant =
        some (.presence 3) ∧
      { twoWaiting with ringNext := 12, tickCount := 1 : State }.grant = some .tick ∧
      { twoWaiting with ringNext := 12, tickCount := 1 : State }.requests (.command 1) = true := by decide +kernel
theorem witness_ungranted :
    twoWaiting.takes 1 .fetch = false ∧ twoWaiting.grant ≠ some (.presence 0) ∧ twoWaiting.grant ≠ some .tick ∧
      twoWaiting.dueRecord ≠ some 0 := by decide +kernel

theorem witness_open_and_close :
    (posted 4 (.openGroup 2 92 1 1 250) hub).takes 4 (.openGroup 2 92 1 1 250) = true ∧
      (hub.group (groupNo 2)).state = .free ∧ hub.reservedTotal + 92 ≤ 128 ∧
      (posted 0 (.close 1) hub).takes 0 (.close 1) = true ∧ (hub.group (groupNo 1)).anchor = some 0 ∧
      (hub.group (groupNo 1)).inFlight = 0 ∧ 1 ≤ (sent.group (groupNo 1)).inFlight := by decide +kernel
theorem witness_join_and_enrol :
    (posted 3 (.join 1) hub).takes 3 (.join 1) = true ∧ PortSet.has (hub.group (groupNo 1)).members 3 = false ∧
      (posted 0 (.enrol 1 5) hub).takes 0 (.enrol 1 5) = true ∧
      PortSet.has (hub.group (groupNo 1)).members 5 = false := by decide +kernel
theorem witness_leave_and_expel :
    (posted 1 (.leave 1) sent).takes 1 (.leave 1) = true ∧ PortSet.has (sent.group (groupNo 1)).members 1 = true ∧
      HandleLaw (posted 1 (.leave 1) sent) ∧ (posted 0 (.expel 1 2) sent).takes 0 (.expel 1 2) = true ∧
      HandleLaw (posted 0 (.expel 1 2) sent) := by
  decide +kernel
/-- The laws under which the statements say what a departure or a retirement leaves. -/
abbrev Tied (s : State) : Prop := HandleLaw s ∧ QuotaLaw s ∧ GroupLaw s ∧ WindowLaw s

theorem witness_departure_laws : Tied (posted 1 (.leave 1) sent) ∧ Tied (posted 0 (.expel 1 2) sent) := by
  and_intros <;> decide +kernel
theorem witness_resize :
    (posted 0 (.resize 1 112) hub).takes 0 (.resize 1 112) = true ∧ (hub.group (groupNo 1)).used ≤ 112 ∧
      hub.reservedTotal + (112 - (hub.group (groupNo 1)).quota) ≤ 128 ∧
      (hub.group (groupNo 1)).quota ≤ hub.reservedTotal := by decide +kernel
theorem witness_reports :
    (posted 0 (.groupInfo 39) hub).takes 0 (.groupInfo 39) = true ∧ (posted 0 .roster hub).takes 0 .roster = true ∧
      (posted 0 .poolInfo hub).takes 0 .poolInfo = true ∧ (hub.port 0).portState = .active := by decide +kernel
theorem witness_attach_and_detach :
    (posted 0 .attach (hub.modPort 0 fun c => { c with portState := .detached })).takes 0 .attach = true ∧
      (posted 0 .detach sent).takes 0 .detach = true ∧ Tied (posted 0 .detach sent) := by
  and_intros <;> decide +kernel

/-- The anchor's retirement: its own message ends, its group becomes FREE, and the other members are told. -/
theorem test_detach_of_anchor :
    let t := after (exec (.detach 0) (posted 0 .detach sent))
    t.group 1 = Group.freed ∧ t.reservedTotal = 16 ∧ (t.port 1).roster = true ∧ (t.port 3).roster = false ∧
      (t.port 0).roster = false := by decide +kernel

/-- A member's retirement leaves the group its other members, its anchor and its quota. -/
theorem test_detach_of_member :
    let t := after (exec (.detach 1) (posted 1 .detach sent))
    t.group 1 = { sent.group 1 with members := #v[true, false, true, false, false, false] } ∧
      t.reservedTotal = 36 ∧ (t.port 2).roster = false := by decide +kernel
theorem witness_presence_report :
    (front 0 (fun f => { f with presence := ⟨true, true, true⟩ }) { sent with ringNext := 1 }).grant =
        some (.presence 0) ∧
      Tied (front 0 (fun f => { f with presence := ⟨true, true, true⟩ }) { sent with ringNext := 1 }) := by
  and_intros <;> decide +kernel
theorem witness_clear_notices :
    (posted 0 (.clearNotices 0x03) hub).takes 0 (.clearNotices 0x03) = true ∧
      (posted 0 (.clearNotices 0x01) hub).takes 0 (.clearNotices 0x01) = true := by decide +kernel
/-! ### The refusal lists, each check at its code -/

/-- Each request, posted by the port in the state, is granted and refused with this code alone. -/
def refusedWith (p : Port) (cases : List (State × Request × Byte)) : Bool :=
  cases.all fun (s, req, code) =>
    (posted p req s).takes p req && (((after (exec (commandOf p req) (posted p req s))).pfe p).replyStore == [code])

/-- Group 1 with a port as its anchor. -/
def anchoredBy (p : Port) : State := hub.modGroup 1 fun e => { e with anchor := some p }

/-- Group 1 CLOSING, with a message in flight. -/
def closingTeam : State := hub.modGroup 1 fun e => { e with state := .closing, used := 1, inFlight := 1 }

theorem witness_open_and_close_refusals :
    refusedWith 0
      [ (State.reset, .openGroup 2 1 0 0 1, 0x01), (hub, .openGroup 2 1 2 0 1, 0x02), (hub, .openGroup 2 1 0 2 1, 0x02),
        (hub, .openGroup 2 1 0 0 0, 0x02), (hub, .openGroup 2 1 0 0 251, 0x02), (hub, .openGroup 2 0 0 0 1, 0x02),
        (hub, .openGroup 2 113 0 0 1, 0x02), (hub, .openGroup 40 1 0 0 1, 0x03), (hub, .openGroup 0 1 0 0 1, 0x07),
        (hub, .openGroup 1 1 0 0 1, 0x05), (hub, .openGroup 2 93 0 0 1, 0x0E) ] = true ∧
    refusedWith 0
      [ (State.reset, .close 1, 0x01), (hub, .close 40, 0x03), (hub, .close 0, 0x07), (hub, .close 39, 0x04),
        (closingTeam, .close 1, 0x06), (anchoredBy 1, .close 1, 0x08) ] = true := by decide +kernel
theorem witness_membership_refusals :
    refusedWith 3
      [ (State.reset, .join 1, 0x01), (hub, .join 40, 0x03), (hub, .join 0, 0x07), (hub, .join 39, 0x04),
        (closingTeam, .join 1, 0x06), (hub.modGroup 1 fun e => { e with joinRule := some .byAnchor }, .join 1, 0x0D),
        (State.reset, .leave 1, 0x01), (hub, .leave 255, 0x03), (hub, .leave 0, 0x07), (hub, .leave 2, 0x04),
        (hub, .leave 1, 0x09) ] = true ∧
    refusedWith 0
      [ (hub, .join 1, 0x0A), (State.reset, .enrol 1 5, 0x01), (hub, .enrol 1 6, 0x02), (hub, .enrol 40 5, 0x03),
        (hub, .enrol 0 5, 0x07), (hub, .enrol 2 5, 0x04), (closingTeam, .enrol 1 5, 0x06),
        (anchoredBy 1, .enrol 1 5, 0x08), (hub.modPort 5 fun _ => CorePort.reset, .enrol 1 5, 0x0B),
        (hub, .enrol 1 2, 0x0A) ] = true ∧
    refusedWith 0
      [ (State.reset, .expel 1 1, 0x01), (hub, .expel 1 255, 0x02), (hub, .expel 40 1, 0x03), (hub, .expel 0 1, 0x07),
        (hub, .expel 2 1, 0x04), (anchoredBy 1, .expel 1 1, 0x08), (hub, .expel 1 3, 0x09),
        (State.reset, .resize 1 1, 0x01), (hub, .resize 1 0, 0x02), (hub, .resize 1 113, 0x02), (hub, .resize 40 1, 0x03),
        (hub, .resize 0 1, 0x07), (hub, .resize 2 1, 0x04), (closingTeam, .resize 1 1, 0x06),
        (anchoredBy 1, .resize 1 1, 0x08), (sent, .resize 1 0, 0x02),
        (hub.modGroup 1 fun e => { e with used := 2 }, .resize 1 1, 0x10),
        ({ hub with reservedTotal := 128 }, .resize 1 21, 0x0E) ] = true := by decide +kernel
theorem witness_port_command_refusals :
    refusedWith 0
      [ (hub, .attach, 0x16), (State.reset, .attach, 0x01), (State.reset, .detach, 0x01),
        (State.reset, .groupInfo 1, 0x01), (hub, .groupInfo 40, 0x03), (State.reset, .roster, 0x01),
        (State.reset, .poolInfo, 0x01), (State.reset, .clearNotices 1, 0x01), (hub, .clearNotices 0, 0x02),
        (hub, .clearNotices 4, 0x02) ] = true := by decide +kernel
theorem witness_send_refusals :
    refusedWith 0
      [ (State.reset, .send 1 9 0 1 0, 0x01), (hub, .send 1 9 0x10 1 0, 0x02), (hub, .send 1 9 0x04 1 0, 0x02),
        (hub, .send 1 9 0 0 0, 0x02), (hub, .send 1 9 0 1 251, 0x02), (hub, .send 40 9 0 1 0, 0x03),
        (hub, .send 39 9 0 1 0, 0x04), (closingTeam, .send 1 9 0 1 0, 0x06),
        (hub.modGroup 1 fun e => { e with members := PortSet.none }, .send 1 9 0 1 0, 0x0C),
        ((anchoredBy 1).modGroup 1 fun e => { e with senderRule := some .anchorOnly }, .send 1 9 0 1 0, 0x0C),
        (hub.modPort 0 fun c => { c with sends := List.replicate 4 (.inTransit 1 ⟨9, 0⟩ true) }, .send 1 9 0 1 0, 0x11),
        (sent, .send 1 9 0 1 0, 0x12), (hub.modGroup 1 fun e => { e with used := 20 }, .send 1 9 0 1 0, 0x0F) ] =
      true := by decide +kernel
theorem witness_receiving_refusals :
    refusedWith 1
      [ (State.reset, .fetch, 0x01), (hub, .fetch, 0x13),
        (sent.modPort 1 fun c => { c with held := List.replicate 4 ⟨9, 0⟩ }, .fetch, 0x14),
        (State.reset, .read 0 0 0 1, 0x01), (held, .read 0 0 0 0, 0x02), (held, .read 0 1 0 1, 0x15),
        (held, .read 24 0 0 1, 0x15), (held, .read 0 0 2 1, 0x02), (State.reset, .ack 0 0 0, 0x01),
        (held, .ack 0 1 0, 0x15), (State.reset, .nack 0 0 0, 0x01), (held, .nack 1 0 0, 0x15),
        (State.reset, .take, 0x01), (held, .take, 0x13) ] = true ∧
      (held.port 1).doneOrder.Perm (((held.port 1).sends.filter SendEntry.isDone).map SendEntry.tag) := by
  decide +kernel

theorem witness_send_commits :
    sendHub.admits 0 1 9 0x05 2 0 0 ∧ (sendHub.targetsOf 0 1 0x05).any (fun x => x.outcome == .queued) = true := by
  decide +kernel
theorem witness_send_closes :
    aloneHub.admits 3 2 4 0x01 1 1 0 ∧ (aloneHub.targetsOf 3 2 0x01).any (fun x => x.outcome == .queued) = false := by
  decide +kernel

/-- A port's delivery queue filled to 16. -/
def fullQueue (p : Port) (s : State) : State :=
  s.modPort p fun c => { c with queue := (List.finRange 16).map fun i => ⟨⟨⟨i.val + 4, by omega⟩, 0⟩, .normal⟩ }

/-- One target BLOCKED and one QUEUED. -/
theorem witness_send_commits_blocked :
    (fullQueue 1 sendHub).admits 0 1 9 0x05 2 0 0 ∧
      ((fullQueue 1 sendHub).targetsOf 0 1 0x05).map Target.outcome = [.blocked, .queued] := by decide +kernel

/-- Every target BLOCKED, of a confirmed and of an unconfirmed message. -/
theorem witness_send_closes_blocked :
    (fullQueue 2 (fullQueue 1 sendHub)).admits 0 1 9 0x05 2 0 0 ∧
      (fullQueue 2 (fullQueue 1 tellHub)).admits 0 1 7 0x00 1 5 0 ∧
      ((fullQueue 2 (fullQueue 1 sendHub)).targetsOf 0 1 0x05).map Target.outcome = [.blocked, .blocked] := by
  and_intros <;> decide +kernel
theorem test_blocked_target_of_unconfirmed_message_misses :
    ((after (exec (.send 0 1 7 0x00 1 5) (fullQueue 1 tellHub))).port 1).missed = true := by decide +kernel
theorem witness_copy :
    Memory.wf [(96, 0x02), (161, 0x07)] ∧ ([5, 3] : List Block).Nodup ∧
      (List.replicate 33 (0x00 : Byte)).length ≤ 32 * 2 := by decide +kernel

/-! ### A CLOSING group whose last record closes -/

/-- Port 0 about to SEND a byte to port 1, the one other member of group 1, with these flags. -/
def pairHub (flags : Byte) : State :=
  posted 0 (.send 1 9 flags 1 0) (staged 0 [0x33]
    (hub.modGroup 1 fun _ => { team with members := #v[true, true, false, false, false, false] }))

/-- That message in flight, and the group closed by its anchor. -/
def closing (flags : Byte) : State :=
  after (exec (.close 0 1) (posted 0 (.close 1) (after (exec (.send 0 1 9 flags 1 0) (pairHub flags)))))

/-- That message held at port 1. -/
def closingHeld : State := after (exec (.fetch 1) (posted 1 .fetch (closing 0x01)))

theorem witness_leave_and_expel_in_closing :
    ((closing 0x01).group 1).state = .closing ∧ HandleLaw (posted 1 (.leave 1) (closing 0x01)) ∧
      (posted 1 (.leave 1) (closing 0x01)).takes 1 (.leave 1) = true ∧
      HandleLaw (posted 0 (.expel 1 1) (closing 0x01)) ∧
      (posted 0 (.expel 1 1) (closing 0x01)).takes 0 (.expel 1 1) = true ∧
      PortSet.has ((closing 0x01).group 1).members 1 = true ∧ ((closing 0x01).group 1).anchor = some 0 := by
  decide +kernel
theorem witness_departure_laws_in_closing :
    Tied (posted 1 (.leave 1) (closing 0x01)) ∧ Tied (posted 0 (.expel 1 1) (closing 0x01)) := by
  and_intros <;> decide +kernel

/-- The last member's departure closes the record: its block goes back and its sender's completion waits. -/
theorem test_leave_closes_the_record :
    let t := after (exec (.leave 1 1) (posted 1 (.leave 1) (closing 0x01)))
    t.freeList = (closing 0x01).freeList ++ [0] ∧ (t.port 0).doneOrder = [9] ∧
      (t.port 0).sends = [.done 9 ⟨9, 1, .partly, [⟨1, .withdrawn, 0⟩]⟩] := by decide +kernel
theorem test_leave_and_expel_free_the_group :
    (after (exec (.leave 1 1) (posted 1 (.leave 1) (closing 0x01)))).group 1 = Group.freed ∧
      (after (exec (.expel 0 1 1) (posted 0 (.expel 1 1) (closing 0x01)))).group 1 = Group.freed := by decide +kernel
theorem witness_fetch_and_ack_in_closing :
    (posted 1 .fetch (closing 0x00)).takes 1 .fetch = true ∧
      ((closing 0x00).port 1).queue = [⟨⟨0, 0⟩, .normal⟩] ∧ ((closing 0x00).message 0).any (fun m => !m.confirm) = true ∧
      (posted 1 (.ack 0 0 7) closingHeld).takes 1 (.ack 0 0 7) = true ∧ (closingHeld.port 1).held = [⟨0, 0⟩] ∧
      (closingHeld.message 0).isSome = true ∧ (closingHeld.group 1).state = .closing := by decide +kernel
theorem test_fetch_and_ack_free_the_group :
    (after (exec (.fetch 1) (posted 1 .fetch (closing 0x00)))).group 1 = Group.freed ∧
      (after (exec (.ack 1 0 0 7) (posted 1 (.ack 0 0 7) closingHeld))).group 1 = Group.freed := by decide +kernel

/-- A held message that does not stop on refusal. -/
theorem witness_nack_without_stop :
    (posted 1 (.nack 0 0 9) closingHeld).takes 1 (.nack 0 0 9) = true ∧
      HandleLaw (posted 1 (.nack 0 0 9) closingHeld) ∧
      (closingHeld.message 0).any (fun m => !m.stopped && !m.stopOnRefusal) = true := by decide +kernel

theorem witness_fetch :
    (posted 1 .fetch sent).takes 1 .fetch = true ∧ ((sent.port 1).queue = [⟨⟨0, 0⟩, .normal⟩]) ∧
      (sent.message 0).any (fun m => m.confirm) = true ∧ (sent.port 1).held.length < 4 ∧
      (posted 1 .fetch told).takes 1 .fetch = true ∧ (told.port 1).queue = [⟨⟨0, 0⟩, .normal⟩] ∧
      (told.message 0).any (fun m => !m.confirm) = true := by decide +kernel
theorem witness_held :
    (posted 1 (.read 0 0 1 255) held).takes 1 (.read 0 0 1 255) = true ∧ (held.port 1).held = [⟨0, 0⟩] ∧
      (held.message 0).any (fun m => decide (1 < m.length) && !m.stopped && m.stopOnRefusal) = true ∧
      (posted 1 (.ack 0 0 255) held).takes 1 (.ack 0 0 255) = true ∧
      (posted 1 (.nack 0 0 0) held).takes 1 (.nack 0 0 0) = true ∧ HandleLaw (posted 1 (.nack 0 0 0) held) := by
  decide +kernel
theorem witness_take :
    (posted 3 .take alone).takes 3 .take = true ∧ (alone.port 3).doneOrder = [4] ∧
      (alone.port 3).sends = [.done 4 ⟨4, 2, .noTargets, []⟩] := by decide +kernel
theorem witness_tick_taking : { sent with tickCount := 255, ringNext := 12 : State }.grant = some .tick := by decide +kernel

/-- The unconfirmed message brought to 0. -/
def expiring : State := after (exec .tickTaking { told with tickCount := 5 })

theorem witness_expiry : expiring.dueRecord = some 0 ∧ HandleLaw expiring := by
  decide +kernel
/-- Two messages brought to 0, so that one is still to expire after the first. -/
def expiringTwo : State :=
  let second := posted 1 (.send 1 8 0x00 1 5) (staged 1 [0x66] told)
  after (exec .tickTaking { after (exec (.send 1 1 8 0x00 1 5) second) with tickCount := 5 })

theorem witness_expiry_in_progress :
    expiringTwo.dueRecord = some 0 ∧ HandleLaw expiringTwo ∧
      (after (exec (.recordExpiry 0) expiringTwo)).dueRecord = some 1 := by decide +kernel

/-- The summaries from before the taking stand until its last expiry. -/
theorem test_summaries_wait_for_last_expiry :
    let t := after (exec (.recordExpiry 0) expiringTwo)
    (t.port 2).queue.length = 1 ∧ (t.port 2).summary.normal = 2 ∧
      ((after (exec (.recordExpiry 1) t)).port 2).summary.normal = 0 := by decide +kernel
theorem witness_tick_in_progress : expiring.midTick = true ∧ expiring.grant = none := by decide +kernel
theorem witness_bounds : BoundsLaw held ∧ held.midTick = false := by decide +kernel

/-- A lawful hub with a message held at one port and queued at another. -/
theorem witness_lawful_hub : HubLaw held := by
  and_intros <;> decide +kernel

end Sys2Proof.Machine.Tests
end

namespace Sys2Proof.Machine.MessagePool

open Laws

/-! ## The places of a chain and what copy-in leaves there (R31, R33, R35 to R37) -/

/-- A place in a chain lies in the block at its chain position (R31). -/
theorem chainAddress_eq_some {chain : List Block} {i a : Nat} :
    chainAddress chain i = some a ↔ ∃ b : Block, chain[i / 32]? = some b ∧ 32 * b.val + i % 32 = a := by
  simp [chainAddress, Config.blockBytes]

/-- Every byte number within a chain has a place. -/
theorem exists_chainAddress {chain : List Block} {i : Nat} (h : i < 32 * chain.length) :
    ∃ a, chainAddress chain i = some a := by
  have hi : i / 32 < chain.length := by omega
  exact ⟨_, chainAddress_eq_some.2 ⟨_, List.getElem?_eq_getElem hi, rfl⟩⟩

/-- In a chain that holds no block twice, two byte numbers never share a place. -/
theorem chainAddress_injective {chain : List Block} (hc : chain.Nodup) {i j a : Nat}
    (hi : chainAddress chain i = some a) (hj : chainAddress chain j = some a) : i = j := by
  obtain ⟨b, hb, hba⟩ := chainAddress_eq_some.1 hi
  obtain ⟨c, hc', hca⟩ := chainAddress_eq_some.1 hj
  have hbc : b = c := Fin.ext (by omega)
  have hlt : i / 32 < chain.length := (List.getElem?_eq_some_iff.1 hb).1
  have hdiv : i / 32 = j / 32 := (List.getElem?_inj hlt hc).1 (by rw [hb, hc', hbc])
  omega

/-- One byte of copy-in: it is written where its place lies, and the rest follows (R33). -/
theorem copyIn_cons {chain : List Block} {i a : Nat} (h : chainAddress chain i = some a) (b : Byte)
    (rest : List Byte) (pool : Memory) :
    copyIn chain i (b :: rest) pool = copyIn chain (i + 1) rest (Memory.write pool a b) := by
  simp [copyIn, h]

/-- Copy-in writes no byte outside the places of its payload (R33). -/
theorem read_copyIn_of_ne (chain : List Block) (payload : List Byte) (i a : Nat) (pool : Memory)
    (h : ∀ k < payload.length, chainAddress chain (i + k) ≠ some a) :
    Memory.read (copyIn chain i payload pool) a = Memory.read pool a := by
  induction payload generalizing i pool with
  | nil => rfl
  | cons b rest ih =>
    have hfirst : chainAddress chain i ≠ some a := h 0 (by simp)
    have hrest : ∀ k < rest.length, chainAddress chain (i + 1 + k) ≠ some a := fun k hk => by
      have := h (k + 1) (by simpa using hk)
      rwa [show i + 1 + k = i + (k + 1) by omega]
    rw [copyIn, ih _ _ hrest]
    split
    · rename_i c hc
      exact read_write_other pool c a b fun hac => hfirst (hac ▸ hc)
    · rfl

/-- Byte `k` of a payload copied in from byte number `i` on reads back as byte number `i + k` (R35, R36, R37). -/
theorem chainByte_copyIn {chain : List Block} (hc : chain.Nodup) (payload : List Byte) (i : Nat) (pool : Memory)
    (hwf : Memory.wf pool) (hfits : i + payload.length ≤ 32 * chain.length) (k : Nat) (hk : k < payload.length) :
    chainByte (copyIn chain i payload pool) chain (i + k) = payload[k] := by
  induction payload generalizing i pool k with
  | nil => simp at hk
  | cons b rest ih =>
    rw [List.length_cons] at hfits hk
    obtain ⟨a, ha⟩ := exists_chainAddress (chain := chain) (i := i) (by omega)
    rw [copyIn_cons ha]
    cases k with
    | zero =>
      have hother : ∀ j < rest.length, chainAddress chain (i + 1 + j) ≠ some a := fun j _ hj => by
        have := chainAddress_injective hc ha hj
        omega
      simp only [chainByte, Nat.add_zero, ha, List.getElem_cons_zero]
      rw [read_copyIn_of_ne _ _ _ _ _ hother, read_write_same pool a b hwf]
    | succ k =>
      have := ih (i + 1) _ (write_wf pool a b (chainAddress_lt ha) hwf) (by omega) k (by omega)
      rwa [show i + (k + 1) = i + 1 + k by omega, List.getElem_cons_succ]

/-- Copy-out gives back any stretch of the payload copied in (R35, R36, R37). -/
theorem copyOut_copyIn {chain : List Block} (hc : chain.Nodup) {payload : List Byte} {pool : Memory}
    (hwf : Memory.wf pool) (hfits : payload.length ≤ 32 * chain.length) {offset count : Nat}
    (h : offset + count ≤ payload.length) :
    copyOut (copyIn chain 0 payload pool) chain offset count = (payload.drop offset).take count := by
  refine List.ext_getElem (by simp; omega) fun k hk _ => ?_
  have hk : offset + k < payload.length := by rw [copyOut_length] at hk; omega
  have hbyte := chainByte_copyIn hc payload 0 pool hwf (by omega) (offset + k) hk
  rw [Nat.zero_add] at hbyte
  simp [copyOut, hbyte]

/-- Settles O37: each byte has a place of its own in the chain, so the last write to a place is the payload's. -/
theorem copyOutReturnsCopyIn : Obligations.CopyOutReturnsCopyIn := by
  intro chain payload pool hwf hc hfits
  refine ⟨fun offset count h => copyOut_copyIn hc hwf hfits h, fun a ha => ?_⟩
  refine read_copyIn_of_ne chain payload 0 a pool fun i hi hplace => ?_
  rw [Nat.zero_add] at hplace
  obtain ⟨b, hb, hba⟩ := chainAddress_eq_some.1 hplace
  exact ha i hi b hb hba.symm

/-! ## The blocks of the hub (R28) -/

/-- Every block the hub holds: those of the free list, then those of the chains in record order. -/
def blocks (s : State) : List Block := s.freeList ++ allRecords.flatMap s.chainOf

theorem poolLaw_iff (s : State) : PoolLaw s ↔ (blocks s).Perm (List.finRange 128) := Iff.rfl

/-- `t` holds the blocks that `s` holds, each as often; they may have moved between the free list and the chains. -/
def KeepsBlocks (s t : State) : Prop := (blocks t).Perm (blocks s)

theorem KeepsBlocks.refl (s : State) : KeepsBlocks s s := List.Perm.refl _

theorem KeepsBlocks.trans {s t u : State} (h : KeepsBlocks s t) (k : KeepsBlocks t u) : KeepsBlocks s u :=
  List.Perm.trans k h

theorem KeepsBlocks.poolLaw {s t : State} (h : KeepsBlocks s t) (hs : PoolLaw s) : PoolLaw t :=
  (poolLaw_iff t).2 (List.Perm.trans h ((poolLaw_iff s).1 hs))

/-- A fold of operations that keep the blocks keeps them. -/
theorem KeepsBlocks.foldl {α : Type} {f : State → α → State} (hf : ∀ s a, KeepsBlocks s (f s a)) (l : List α)
    (s : State) : KeepsBlocks s (l.foldl f s) := by
  induction l generalizing s with
  | nil => exact KeepsBlocks.refl s
  | cons a l ih => exact (hf s a).trans (ih (f s a))

/-- An operation that touches neither the free list nor a chain keeps the blocks. -/
theorem KeepsBlocks.of_chains {s t : State} (hf : t.freeList = s.freeList) (hc : ∀ r, t.chainOf r = s.chainOf r) :
    KeepsBlocks s t := by
  rw [KeepsBlocks, blocks, blocks, hf, List.flatMap_congr fun r _ => hc r]

theorem chainOf_of_some {s : State} {r : RecordIndex} {m : Message} (h : s.message r = some m) :
    s.chainOf r = m.chain := by simp [State.chainOf, h]

theorem chainOf_of_none {s : State} {r : RecordIndex} (h : s.message r = none) : s.chainOf r = [] := by
  simp [State.chainOf, h]

/-- The blocks of the records other than `r`. -/
def otherBlocks (s : State) (r : RecordIndex) : List Block := (allRecords.erase r).flatMap s.chainOf

theorem otherBlocks_congr {s t : State} {r : RecordIndex} (h : ∀ k, k ≠ r → t.chainOf k = s.chainOf k) :
    otherBlocks t r = otherBlocks s r :=
  List.flatMap_congr fun k hk => h k ((List.nodup_finRange 24).mem_erase_iff.1 hk).1

/-- The blocks, with one record's chain set apart. -/
theorem blocks_perm_split (s : State) (r : RecordIndex) :
    (blocks s).Perm (s.freeList ++ s.chainOf r ++ otherBlocks s r) := by
  have hsplit := (List.perm_cons_erase (List.mem_finRange r)).flatMap fun k _ => List.Perm.refl (s.chainOf k)
  rw [List.flatMap_cons] at hsplit
  rw [List.append_assoc]
  exact hsplit.append_left s.freeList

/-- Blocks that go between the free list and the chain of one record are kept. -/
theorem KeepsBlocks.of_moved {s t : State} (r : RecordIndex) (h : ∀ k, k ≠ r → t.chainOf k = s.chainOf k)
    (hmoved : (t.freeList ++ t.chainOf r).Perm (s.freeList ++ s.chainOf r)) : KeepsBlocks s t := by
  have ht := blocks_perm_split t r
  rw [otherBlocks_congr h] at ht
  exact ht.trans ((hmoved.append_right _).trans (blocks_perm_split s r).symm)

/-! ## Operations that touch neither the Transit Table nor the free list -/

/-- `t` has the transit records and the free list of `s`. -/
structure SameRecords (s t : State) : Prop where
  record   : ∀ r, t.record r = s.record r
  freeList : t.freeList = s.freeList

theorem SameRecords.refl (s : State) : SameRecords s s := ⟨fun _ => rfl, rfl⟩

theorem SameRecords.trans {s t u : State} (h : SameRecords s t) (k : SameRecords t u) : SameRecords s u :=
  ⟨fun r => (k.record r).trans (h.record r), k.freeList.trans h.freeList⟩

/-- A fold of operations that leave the records and the free list leaves them. -/
theorem SameRecords.foldl {α : Type} {f : State → α → State} (hf : ∀ s a, SameRecords s (f s a)) (l : List α)
    (s : State) : SameRecords s (l.foldl f s) := by
  induction l generalizing s with
  | nil => exact SameRecords.refl s
  | cons a l ih => exact (hf s a).trans (ih (f s a))

theorem SameRecords.message {s t : State} (h : SameRecords s t) (r : RecordIndex) : t.message r = s.message r :=
  congrArg TransitRecord.message (h.record r)

theorem SameRecords.keepsBlocks {s t : State} (h : SameRecords s t) : KeepsBlocks s t :=
  .of_chains h.freeList fun r => by rw [State.chainOf, State.chainOf, h.message]

theorem modPort_sameRecords (s : State) (p : Port) (f : CorePort → CorePort) : SameRecords s (s.modPort p f) :=
  ⟨fun _ => rfl, rfl⟩

theorem modPfe_sameRecords (s : State) (p : Port) (f : Pfe → Pfe) : SameRecords s (s.modPfe p f) :=
  ⟨fun _ => rfl, rfl⟩

theorem modGroup_sameRecords (s : State) (g : GroupNo) (f : Group → Group) : SameRecords s (s.modGroup g f) :=
  ⟨fun _ => rfl, rfl⟩

theorem mapPfes_sameRecords (s : State) (f : Port → Pfe → Pfe) : SameRecords s (s.mapPfes f) :=
  ⟨mapPfes_record s f, mapPfes_freeList s f⟩

theorem mapPorts_sameRecords (s : State) (f : Port → CorePort → CorePort) : SameRecords s (s.mapPorts f) :=
  ⟨mapPorts_record s f, mapPorts_freeList s f⟩

theorem mapGroups_sameRecords (s : State) (f : GroupNo → Group → Group) : SameRecords s (s.mapGroups f) :=
  ⟨mapGroups_record s f, mapGroups_freeList s f⟩

theorem setReserved_sameRecords (s : State) (n : Nat) : SameRecords s (s.setReserved n) := ⟨fun _ => rfl, rfl⟩

theorem setTickCount_sameRecords (s : State) (n : Nat) : SameRecords s (s.setTickCount n) := ⟨fun _ => rfl, rfl⟩

theorem setPending_sameRecords (s : State) (cs : List Instr) : SameRecords s (s.setPending cs) := ⟨fun _ => rfl, rfl⟩

theorem setArbiter_sameRecords (s : State) (k : Fin 13) (u : Option Port) : SameRecords s (s.setArbiter k u) :=
  ⟨fun _ => rfl, rfl⟩

theorem refresh_sameRecords (s : State) : SameRecords s s.refresh := ⟨refresh_record s, refresh_freeList s⟩

theorem notifyRoster_sameRecords (s : State) (m : PortSet) (but : Option Port) :
    SameRecords s (s.notifyRoster m but) := mapPorts_sameRecords s _

theorem freeIfDone_sameRecords (s : State) (g : GroupNo) (closer : Option Port) :
    SameRecords s (s.freeIfDone g closer) := by
  unfold State.freeIfDone
  split
  · exact ((setReserved_sameRecords s _).trans (notifyRoster_sameRecords _ _ _)).trans (modGroup_sameRecords _ g _)
  · exact SameRecords.refl s

theorem enterClosing_sameRecords (s : State) (g : GroupNo) (cause : Port) (closer : Option Port) :
    SameRecords s (s.enterClosing g cause closer) :=
  ((modGroup_sameRecords s g _).trans (notifyRoster_sameRecords _ _ _)).trans (freeIfDone_sameRecords _ g closer)

theorem loseAnchor_sameRecords (p : Port) (s : State) (g : GroupNo) : SameRecords s (State.loseAnchor p s g) := by
  unfold State.loseAnchor
  split
  · dsimp only
    split
    · exact (modGroup_sameRecords s g _).trans (enterClosing_sameRecords _ g p none)
    · exact modGroup_sameRecords s g _
  · exact SameRecords.refl s

theorem notifyPort_sameRecords (s : State) (p q : Port) : SameRecords s (s.notifyPort p q) := by
  unfold State.notifyPort
  split
  · exact SameRecords.refl s
  · exact modPort_sameRecords s q _

theorem clearNoticesEffect_sameRecords (p : Port) (choice : Byte) (s : State) :
    SameRecords s (clearNoticesEffect p choice s) := by
  unfold clearNoticesEffect
  split
  · exact SameRecords.refl s
  · exact modPort_sameRecords s p _

theorem missIfQueued_sameRecords (s : State) (r : RecordIndex) (q : Port) : SameRecords s (s.missIfQueued r q) := by
  unfold State.missIfQueued
  split
  · exact modPort_sameRecords s q _
  · exact SameRecords.refl s

theorem closeEntry_sameRecords (s : State) (retiring : Option Port) (r : RecordIndex) (m : Message) :
    SameRecords s (s.closeEntry retiring r m) := by
  unfold State.closeEntry
  split
  · exact SameRecords.refl s
  · split <;> exact modPort_sameRecords s m.sender _

theorem releaseCharge_sameRecords (s : State) (m : Message) : SameRecords s (s.releaseCharge m) :=
  (modGroup_sameRecords s m.group _).trans (freeIfDone_sameRecords _ m.group none)

/-! ## Outcomes: messages change, chains do not -/

/-- An update of a message that leaves its chain alone. -/
theorem modMessage_keepsBlocks (s : State) (r : RecordIndex) {f : Message → Message}
    (hf : ∀ m, (f m).chain = m.chain) : KeepsBlocks s (s.modMessage r f) := by
  refine .of_chains rfl fun k => ?_
  by_cases h : r = k
  · subst h
    simp [State.chainOf, Function.comp_def, hf]
  · simp [State.chainOf, h]

theorem setTarget_keepsBlocks (s : State) (r : RecordIndex) (p : Port) (o : TargetOutcome) (code : Byte) :
    KeepsBlocks s (s.setTarget r p o code) :=
  modMessage_keepsBlocks s r fun _ => rfl

theorem settle_keepsBlocks (s : State) (r : RecordIndex) (p : Port) (o : TargetOutcome) (code : Byte) :
    KeepsBlocks s (s.settle r p o code) := by
  rcases settle_cases s r p o code with h | h | h <;> rw [h]
  · exact KeepsBlocks.refl s
  · exact (modPort_sameRecords s p _).keepsBlocks.trans (setTarget_keepsBlocks _ r p o code)
  · exact (modPort_sameRecords s p _).keepsBlocks.trans (setTarget_keepsBlocks _ r p o code)

theorem addTarget_keepsBlocks (r : RecordIndex) (cls : MsgClass) (confirm : Bool) (s : State) (q : Port) :
    KeepsBlocks s (State.addTarget r cls confirm s q) :=
  (modPort_sameRecords s q _).keepsBlocks.trans (modMessage_keepsBlocks _ r fun _ => rfl)

theorem stopMessage_keepsBlocks (s : State) (r : RecordIndex) : KeepsBlocks s (s.stopMessage r) := by
  have hstopped : KeepsBlocks s (s.modMessage r fun m => { m with stopped := true }) :=
    modMessage_keepsBlocks s r fun _ => rfl
  exact hstopped.trans (.foldl (fun t q => settle_keepsBlocks t r q _ _) allPorts _)

theorem expireTargets_keepsBlocks (s : State) (r : RecordIndex) : KeepsBlocks s (s.expireTargets r) :=
  .foldl (fun t q => (missIfQueued_sameRecords t r q).keepsBlocks.trans (settle_keepsBlocks _ r q _ _)) allPorts s

theorem lowerRemaining_keepsBlocks (s : State) (c : Nat) : KeepsBlocks s (s.lowerRemaining c) := by
  refine .of_chains (mapRecords_freeList s _) fun r => ?_
  simp [State.lowerRemaining, State.chainOf, State.message, Function.comp_def]

/-! ## The close of a record: its chain goes to the free list (R34, R103) -/

/-- The close appends the chain at the tail of the free list (R34). -/
theorem closeRecord_freeList {s : State} {r : RecordIndex} {m : Message} (h : s.message r = some m)
    (retiring : Option Port) : (s.closeRecord retiring r).freeList = s.freeList ++ m.chain := by
  rw [closeRecord_some h, modRecord_freeList, (releaseCharge_sameRecords _ m).freeList, State.freeChain,
    setFreeList_freeList, (closeEntry_sameRecords s retiring r m).freeList]

/-- The close sets its own record FREE, the generation advanced, and leaves every other (R87, R103). -/
theorem closeRecord_record {s : State} {r : RecordIndex} {m : Message} (h : s.message r = some m)
    (retiring : Option Port) (k : RecordIndex) :
    (s.closeRecord retiring r).record k = if r = k then (s.record r).retire else s.record k := by
  rw [closeRecord_some h, modRecord_record]
  simp only [(releaseCharge_sameRecords _ m).record, State.freeChain, setFreeList_record,
    (closeEntry_sameRecords s retiring r m).record]

theorem closeRecord_keepsBlocks (s : State) (retiring : Option Port) (r : RecordIndex) :
    KeepsBlocks s (s.closeRecord retiring r) := by
  cases h : s.message r with
  | none => simp only [State.closeRecord, h]; exact KeepsBlocks.refl s
  | some m =>
    have hfree : (s.closeRecord retiring r).message r = none := by
      simp [State.message, closeRecord_record h, TransitRecord.retire]
    have hother : ∀ k, k ≠ r → (s.closeRecord retiring r).chainOf k = s.chainOf k := fun k hk => by
      simp [State.chainOf, State.message, closeRecord_record h, hk.symm]
    refine .of_moved r hother ?_
    rw [closeRecord_freeList h, chainOf_of_none hfree, chainOf_of_some h, List.append_nil]

theorem closeIfSettled_keepsBlocks (s : State) (retiring : Option Port) (r : RecordIndex) :
    KeepsBlocks s (s.closeIfSettled retiring r) := by
  rcases closeIfSettled_cases s retiring r with h | ⟨m, -, -, h⟩ <;> rw [h]
  · exact KeepsBlocks.refl s
  · exact closeRecord_keepsBlocks s retiring r

theorem expire_keepsBlocks (s : State) (r : RecordIndex) : KeepsBlocks s (s.expire r) :=
  (expireTargets_keepsBlocks s r).trans (closeIfSettled_keepsBlocks _ none r)

theorem withdraw_keepsBlocks (s : State) (retiring : Option Port) (r : RecordIndex) (p : Port) :
    KeepsBlocks s (s.withdraw retiring r p) := by
  unfold State.withdraw
  split
  · exact (settle_keepsBlocks s r p _ _).trans (closeIfSettled_keepsBlocks _ retiring r)
  · exact KeepsBlocks.refl s

theorem withdrawAll_keepsBlocks (s : State) (retiring : Option Port) (p : Port) (rs : List RecordIndex) :
    KeepsBlocks s (s.withdrawAll retiring p rs) :=
  .foldl (fun t r => withdraw_keepsBlocks t retiring r p) rs s

theorem withdrawGroup_keepsBlocks (s : State) (p : Port) (g : GroupNo) : KeepsBlocks s (s.withdrawGroup p g) :=
  withdrawAll_keepsBlocks s none p _

theorem endMessage_keepsBlocks (p : Port) (s : State) (r : RecordIndex) : KeepsBlocks s (State.endMessage p s r) := by
  unfold State.endMessage
  split
  · exact .foldl (fun t q => withdraw_keepsBlocks t (some p) r q) allPorts s
  · exact KeepsBlocks.refl s

/-- The six steps of a retirement in their order (R133). -/
theorem retire_keepsBlocks (s : State) (p : Port) (final : PortState) : KeepsBlocks s (s.retire p final) := by
  have htargets : KeepsBlocks s (s.retireTargets p) :=
    (withdrawAll_keepsBlocks s (some p) p _).trans (withdrawAll_keepsBlocks _ (some p) p _)
  have hgroups (t : State) : SameRecords t ((t.retireMemberships p).retireAnchorships p) :=
    (mapGroups_sameRecords t _).trans (.foldl (loseAnchor_sameRecords p) allGroups _)
  have hmessages (t : State) : KeepsBlocks t (t.retireMessages p) := .foldl (endMessage_keepsBlocks p) allRecords t
  have hport (t : State) : SameRecords t ((t.retireSends p).setPortState p final) :=
    (modPort_sameRecords t p _).trans (modPort_sameRecords _ p _)
  exact ((htargets.trans (hgroups _).keepsBlocks).trans (hmessages _)).trans (hport _).keepsBlocks

/-! ## The commit of a SEND: the chain comes from the head of the free list (R32) -/

theorem commitRecord_freeList (p : Port) (g tag flags len dl : Byte) (r : RecordIndex) (s : State) :
    (commitRecord p g tag flags len dl r s).freeList = s.freeList.drop (blocksFor len.toNat) := rfl

/-- The commit's record takes the message; every other record stays. -/
theorem commitRecord_message (p : Port) (g tag flags len dl : Byte) (r : RecordIndex) (s : State) (k : RecordIndex) :
    (commitRecord p g tag flags len dl r s).message k =
      if r = k then some (messageOf p g tag flags len dl (s.freeList.take (blocksFor len.toNat)) s)
      else s.message k := by
  simp only [State.message, commitRecord, modGroup_record, modRecord_record, setPool_record, setFreeList_record]
  split <;> rfl

theorem commitRecord_keepsBlocks (p : Port) (g tag flags len dl : Byte) {r : RecordIndex} {s : State}
    (hr : s.message r = none) : KeepsBlocks s (commitRecord p g tag flags len dl r s) := by
  have htaken : (commitRecord p g tag flags len dl r s).chainOf r = s.freeList.take (blocksFor len.toNat) :=
    chainOf_of_some ((commitRecord_message p g tag flags len dl r s r).trans (if_pos rfl))
  have hother : ∀ k, k ≠ r → (commitRecord p g tag flags len dl r s).chainOf k = s.chainOf k := fun k hk => by
    rw [State.chainOf, State.chainOf, commitRecord_message, if_neg hk.symm]
  refine .of_moved r hother ?_
  rw [htaken, commitRecord_freeList, chainOf_of_none hr, List.append_nil]
  exact List.perm_append_comm.trans (.of_eq (List.take_append_drop _ _))

theorem commit_keepsBlocks (p : Port) (g tag flags len dl : Byte) {r : RecordIndex} {s : State}
    (hr : s.message r = none) : KeepsBlocks s (commit p g tag flags len dl r s).1 := by
  have htargets (t : State) : KeepsBlocks t (commitTargets p g tag flags r t) :=
    (KeepsBlocks.foldl (addTarget_keepsBlocks r _ _) _ t).trans (modPort_sameRecords _ p _).keepsBlocks
  exact ((commitRecord_keepsBlocks p g tag flags len dl hr).trans (htargets _)).trans
    (closeIfSettled_keepsBlocks _ none r)

/-- The record a SEND claims is FREE (R47). -/
theorem message_of_freeRecord {s : State} {r : RecordIndex} (h : s.freeRecord = some r) : s.message r = none := by
  simpa using List.find?_some h

/-! ## The effects of the commands -/

/-- Whatever tables the effect of a command gives, they hold the blocks of `s`. -/
def EffectKeepsBlocks (s : State) (effect : CoreResult) : Prop :=
  ∀ t reply, effect = .ok (t, reply) → KeepsBlocks s t

theorem EffectKeepsBlocks.ok {s t : State} (reply : List Byte) (h : KeepsBlocks s t) :
    EffectKeepsBlocks s (.ok (t, reply)) := by
  intro u _ hu
  cases hu
  exact h

theorem EffectKeepsBlocks.error (s : State) (f : Fault) : EffectKeepsBlocks s (.error f) := by
  intro u _ hu
  cases hu

/-- A refusal changes no table (R171), so the checks of a command do not matter here. -/
theorem EffectKeepsBlocks.judged {s : State} {effect : CoreResult} (cs : List (Bool × ResultCode))
    (h : EffectKeepsBlocks s effect) : EffectKeepsBlocks s (judged s cs effect) := by
  intro t reply ht
  obtain ⟨_, _, rfl, _⟩ | ⟨_, he⟩ := judged_cases ht
  · exact KeepsBlocks.refl _
  · exact h t reply he

theorem sendEffect_keepsBlocks (p : Port) (g tag flags len dl : Byte) (s : State) :
    EffectKeepsBlocks s (sendEffect p g tag flags len dl s) := by
  unfold sendEffect
  split
  · exact .error s _
  · rename_i r hr
    split
    · exact .error s _
    · exact .ok _ (commit_keepsBlocks p g tag flags len dl (message_of_freeRecord hr))

theorem fetchEffect_keepsBlocks (p : Port) (s : State) : EffectKeepsBlocks s (fetchEffect p s) := by
  unfold fetchEffect
  split
  · exact .ok _ (.refl s)
  · rename_i d _ _
    split
    · exact .error s _
    · have hconfirmed : KeepsBlocks s (fetchConfirmed p d.handle s) :=
        ((modPort_sameRecords s p _).trans (modPort_sameRecords _ p _)).keepsBlocks.trans
          (setTarget_keepsBlocks _ _ p _ _)
      have hunconfirmed : KeepsBlocks s (fetchUnconfirmed p d.handle s) :=
        ((modPort_sameRecords s p _).keepsBlocks.trans (setTarget_keepsBlocks _ _ p _ _)).trans
          (closeIfSettled_keepsBlocks _ none _)
      refine .ok _ ?_
      split
      · exact hconfirmed
      · exact hunconfirmed

theorem readEffect_keepsBlocks (p : Port) (index generation offset count : Byte) (s : State) :
    EffectKeepsBlocks s (readEffect p index generation offset count s) := by
  unfold readEffect
  split
  · exact .error s _
  · exact .ok _ (.refl s)

theorem answer_keepsBlocks (p : Port) (h : Handle) (o : TargetOutcome) (code : Byte) (s : State) :
    KeepsBlocks s (answer p h o code s) :=
  (modPort_sameRecords s p _).keepsBlocks.trans (setTarget_keepsBlocks _ _ p o code)

theorem ackEffect_keepsBlocks (p : Port) (code : Byte) (h : Handle) (s : State) :
    KeepsBlocks s (ackEffect p code h s) :=
  (answer_keepsBlocks p h .acked code s).trans (closeIfSettled_keepsBlocks _ none _)

theorem nackEffect_keepsBlocks (p : Port) (code : Byte) (h : Handle) (s : State) :
    KeepsBlocks s (nackEffect p code h s) := by
  refine (answer_keepsBlocks p h .refused code s).trans (KeepsBlocks.trans ?_ (closeIfSettled_keepsBlocks _ none _))
  split
  · exact stopMessage_keepsBlocks _ _
  · exact KeepsBlocks.refl _

theorem answerEffect_keepsBlocks (p : Port) (index generation : Byte) {effect : Handle → State → State} {s : State}
    (h : ∀ k, KeepsBlocks s (effect k s)) : EffectKeepsBlocks s (answerEffect p index generation effect s) := by
  unfold answerEffect
  split
  · exact .ok _ (.refl s)
  · exact .ok _ (h _)

theorem takeEffect_keepsBlocks (p : Port) (s : State) : EffectKeepsBlocks s (takeEffect p s) := by
  unfold takeEffect
  split
  · exact .ok _ (.refl s)
  · exact .ok _ (modPort_sameRecords s p _).keepsBlocks

theorem presenceEffect_keepsBlocks (p : Port) (lostSeen present : Bool) (s : State) :
    KeepsBlocks s (presenceEffect p lostSeen present s) := by
  unfold presenceEffect
  split
  · split
    · exact retire_keepsBlocks s p _
    · exact (modPort_sameRecords s p _).keepsBlocks
  · split
    · exact (modPort_sameRecords s p _).keepsBlocks
    · exact KeepsBlocks.refl s

/-! ## The steps -/

theorem onNext_next {t : State} {P : State → Prop} (h : P t) : OnNext (.next t) P := by
  intro u hu
  cases hu
  exact h

theorem afterTaking_keepsBlocks {s t : State} (p : Port) (reply : List Byte) (h : KeepsBlocks s t) :
    KeepsBlocks s (afterTaking p t reply) :=
  h.trans (((modPfe_sameRecords t p _).trans (setArbiter_sameRecords _ _ _)).trans (refresh_sameRecords _)).keepsBlocks

/-- The taking of a command slot keeps the blocks where the command's effect does. -/
theorem takeCommand_keepsBlocks (p : Port) (req : Request) {effect : State → CoreResult} {s : State}
    (h : EffectKeepsBlocks s (effect s)) : OnNext (takeCommand p req effect s) (KeepsBlocks s) := by
  intro u hu
  obtain ⟨_, rfl⟩ | ⟨_, t, reply, he, rfl⟩ := takeCommand_cases hu
  · exact KeepsBlocks.refl u
  · exact afterTaking_keepsBlocks p reply (h t reply he)

/-- The taking of a command that is judged and, where it passes, answered OK alone. -/
theorem takeOkAlone_keepsBlocks (p : Port) {req : Request} {checks : State → List (Bool × ResultCode)}
    {effect : State → State} {s : State} (h : KeepsBlocks s (effect s)) :
    OnNext (takeCommand p req (fun s => judged s (checks s) (okAlone (effect s))) s) (KeepsBlocks s) :=
  takeCommand_keepsBlocks p req (.judged (checks s) (.ok _ h))

theorem execSend_keepsBlocks (p : Port) (g tag flags len dl : Byte) (s : State) :
    OnNext (execSend p g tag flags len dl s) (KeepsBlocks s) := by
  refine takeCommand_keepsBlocks p _ fun t reply ht => ?_
  have hjudged := EffectKeepsBlocks.judged (sendChecks p g tag flags len dl s)
    (sendEffect_keepsBlocks p g tag flags len dl s)
  cases hout : judged s (sendChecks p g tag flags len dl s) (sendEffect p g tag flags len dl s) with
  | error f => rw [hout] at ht; cases ht
  | ok out =>
    rw [hout] at ht
    cases ht
    exact (hjudged _ _ hout).trans (modPfe_sameRecords _ p _).keepsBlocks

theorem pfeEvent_keepsBlocks (p : Port) (act : Summary → Pfe → Pfe) (s : State) : KeepsBlocks s (pfeEvent p act s) :=
  (modPfe_sameRecords s p _).keepsBlocks

theorem byteEventIf_keepsBlocks (p : Port) (case : Pfe → Bool) (b : Byte) (s : State) :
    KeepsBlocks s (byteEventIf p case b s) := by
  obtain ⟨_, h⟩ | ⟨_, h⟩ := byteEventIf_cases p case b s <;> rw [h]
  · exact pfeEvent_keepsBlocks p _ s
  · exact KeepsBlocks.refl s

theorem execRecall_keepsBlocks (p : Port) (granted : Bool) (s : State) :
    OnNext (execRecall p granted s) (KeepsBlocks s) := by
  refine onNext_next ((byteEventIf_keepsBlocks p Pfe.atCommand 0x06 s).trans ?_)
  unfold noteUnderway
  split
  · exact (setArbiter_sameRecords _ _ _).keepsBlocks
  · exact KeepsBlocks.refl _

theorem endTick_keepsBlocks (s : State) : KeepsBlocks s s.endTick := by
  unfold State.endTick
  split
  · exact KeepsBlocks.refl s
  · exact (refresh_sameRecords s).keepsBlocks

theorem execTickTaking_keepsBlocks (s : State) : OnNext (execTickTaking s) (KeepsBlocks s) := by
  unfold execTickTaking
  split
  · exact onNext_next ((((setTickCount_sameRecords s 0).keepsBlocks.trans (lowerRemaining_keepsBlocks _ _)).trans
      (setArbiter_sameRecords _ _ _).keepsBlocks).trans (endTick_keepsBlocks _))
  · exact onNext_next (.refl s)

theorem execRecordExpiry_keepsBlocks (r : RecordIndex) (s : State) :
    OnNext (execRecordExpiry r s) (KeepsBlocks s) := by
  unfold execRecordExpiry
  split
  · exact onNext_next ((expire_keepsBlocks s r).trans (endTick_keepsBlocks _))
  · exact onNext_next (.refl s)

theorem execPresenceReport_keepsBlocks (p : Port) (s : State) :
    OnNext (execPresenceReport p s) (KeepsBlocks s) := by
  unfold execPresenceReport
  split
  · exact onNext_next ((((modPfe_sameRecords s p _).keepsBlocks.trans (presenceEffect_keepsBlocks p _ _ _)).trans
      (setArbiter_sameRecords _ _ _).keepsBlocks).trans (refresh_sameRecords _).keepsBlocks)
  · exact onNext_next (.refl s)

/-- Every command but HUB_RESET moves blocks and neither adds, doubles nor loses one. -/
theorem exec_keepsBlocks (i : Instr) (hi : i ≠ .hubReset) (s : State) : OnNext (exec i s) (KeepsBlocks s) := by
  cases i with dsimp only [exec]
  | hubReset => exact absurd rfl hi
  | tick prs =>
    exact onNext_next ((setTickCount_sameRecords s _).trans (mapPfes_sameRecords _ _)).keepsBlocks
  | idleSelect p | select p _ | deselect p | byteCompletion p _ => exact onNext_next (pfeEvent_keepsBlocks p _ s)
  | unknownCommand p _ | commandPost p _ | nop p | status p | clearFault p | setMask p _ =>
    exact onNext_next (byteEventIf_keepsBlocks p _ _ s)
  | attach p =>
    exact takeOkAlone_keepsBlocks p ((modPort_sameRecords s p _).trans (modGroup_sameRecords _ 0 _)).keepsBlocks
  | detach p => exact takeOkAlone_keepsBlocks p (retire_keepsBlocks s p .detached)
  | clearNotices p choice => exact takeOkAlone_keepsBlocks p (clearNoticesEffect_sameRecords p choice s).keepsBlocks
  | openGroup p _ _ _ _ _ | resize p _ _ =>
    exact takeOkAlone_keepsBlocks p ((setReserved_sameRecords s _).trans (modGroup_sameRecords _ _ _)).keepsBlocks
  | close p g => exact takeOkAlone_keepsBlocks p (enterClosing_sameRecords s _ p _).keepsBlocks
  | join p g => exact takeOkAlone_keepsBlocks p (modGroup_sameRecords s _ _).keepsBlocks
  | leave p g =>
    exact takeOkAlone_keepsBlocks p ((modGroup_sameRecords s _ _).keepsBlocks.trans (withdrawGroup_keepsBlocks _ p _))
  | enrol p g port =>
    exact takeOkAlone_keepsBlocks p ((modGroup_sameRecords s _ _).trans (notifyPort_sameRecords _ p _)).keepsBlocks
  | expel p g port =>
    exact takeOkAlone_keepsBlocks p
      (((modGroup_sameRecords s _ _).trans (notifyPort_sameRecords _ p _)).keepsBlocks.trans
        (withdrawGroup_keepsBlocks _ _ _))
  | groupInfo p _ | roster p | poolInfo p => exact takeCommand_keepsBlocks p _ (.judged _ (.ok _ (.refl s)))
  | send p g tag flags len dl => exact execSend_keepsBlocks p g tag flags len dl s
  | fetch p => exact takeCommand_keepsBlocks p _ (.judged _ (fetchEffect_keepsBlocks p s))
  | read p index generation offset count =>
    exact takeCommand_keepsBlocks p _ (.judged _ (readEffect_keepsBlocks p index generation offset count s))
  | ack p index generation code =>
    exact takeCommand_keepsBlocks p _
      (.judged _ (answerEffect_keepsBlocks p index generation fun h => ackEffect_keepsBlocks p code h s))
  | nack p index generation code =>
    exact takeCommand_keepsBlocks p _
      (.judged _ (answerEffect_keepsBlocks p index generation fun h => nackEffect_keepsBlocks p code h s))
  | take p => exact takeCommand_keepsBlocks p _ (.judged _ (takeEffect_keepsBlocks p s))
  | tickTaking => exact execTickTaking_keepsBlocks s
  | recordExpiry r => exact execRecordExpiry_keepsBlocks r s
  | presenceReport p => exact execPresenceReport_keepsBlocks p s
  | _ => exact execRecall_keepsBlocks _ _ s -- RECALL, whose constructor has the name of a Mathlib command

/-- After hub reset every block is on the free list and every record FREE (R29). -/
theorem poolLaw_reset : PoolLaw State.reset := by
  have hfree : ∀ r, State.reset.chainOf r = [] := fun r => by
    simp [State.reset, State.chainOf, State.message, State.record]
  rw [PoolLaw, List.flatMap_congr fun r _ => hfree r]
  exact .of_eq (by simp [State.reset])

theorem execHubReset_poolLaw (s : State) : OnNext (execHubReset s) PoolLaw := by
  have hsame : SameRecords State.reset ((State.reset.setPool s.pool).setPending s.pending) := ⟨fun _ => rfl, rfl⟩
  exact onNext_next ((hsame.trans (mapPfes_sameRecords _ _)).keepsBlocks.poolLaw poolLaw_reset)

theorem exec_poolLaw (i : Instr) {s : State} (hs : PoolLaw s) : OnNext (exec i s) PoolLaw := by
  by_cases hi : i = .hubReset
  · subst hi
    exact execHubReset_poolLaw s
  · exact fun t ht => (exec_keepsBlocks i hi s t ht).poolLaw hs

/-- Settles O52: HUB_RESET puts every block on the free list, and every other command only moves blocks between the
free list and the chains. -/
theorem everyStepKeepsPoolLaw : Obligations.EveryStepKeepsPoolLaw := by
  intro s hs
  unfold step
  cases s.pending with
  | nil => exact onNext_next hs
  | cons c rest => exact exec_poolLaw c ((setPending_sameRecords s rest).keepsBlocks.poolLaw hs)

/-! ## A FREE record is always found (R47, R121) -/

/-- The number of records a port has in flight, counted record by record. -/
theorem recordsOf_length (s : State) (p : Port) :
    (s.recordsOf p).length = ∑ r : RecordIndex, if s.sentBy r p then 1 else 0 := by
  have hnodup : (s.recordsOf p).Nodup := (List.nodup_finRange 24).filter _
  rw [← List.toFinset_card_of_nodup hnodup, State.recordsOf, List.toFinset_filter, List.toFinset_finRange,
    Finset.card_filter]
  rfl

/-- Where no record is FREE, each of the 24 is in flight for one port. -/
theorem sum_recordsOf_length {s : State} (h : ∀ r, s.message r ≠ none) :
    ∑ p : Port, (s.recordsOf p).length = 24 := by
  have hone (r : RecordIndex) : (∑ p : Port, if s.sentBy r p then 1 else 0) = 1 := by
    obtain ⟨m, hm⟩ := Option.ne_none_iff_exists'.1 (h r)
    simp [State.sentBy, hm]
  simp only [recordsOf_length]
  rw [Finset.sum_comm]
  simp [hone]

/-- A port has no more records in flight than entries in its send list (R111). -/
theorem recordsOf_length_le {s : State} (hw : WindowLaw s) (p : Port) :
    (s.recordsOf p).length ≤ (s.port p).sends.length := by
  obtain ⟨_, hentries, _, _⟩ := hw p
  calc (s.recordsOf p).length = ((s.port p).sends.filterMap SendEntry.handleOf).length := by
        rw [hentries.length_eq, List.length_map]
    _ ≤ (s.port p).sends.length := List.length_filterMap_le _ _

/-- Six windows of four entries reach 24 records only when every one is full (R121). -/
theorem exists_freeRecord {s : State} (hcap : CapacityLaw s) (hw : WindowLaw s) {p : Port}
    (hp : (s.port p).sends.length < 4) : ∃ r, s.freeRecord = some r := by
  by_contra hnone
  have hnone : s.freeRecord = none := by simpa [← Option.ne_none_iff_exists'] using hnone
  have hall : ∀ r, s.message r ≠ none := fun r hr => by
    simpa [hr] using List.find?_eq_none.1 hnone r (List.mem_finRange r)
  have hle (q : Port) : (s.recordsOf q).length ≤ 4 := (recordsOf_length_le hw q).trans (hcap q).2.2
  have hlt : ∑ q : Port, (s.recordsOf q).length < ∑ _q : Port, 4 :=
    Finset.sum_lt_sum (fun q _ => hle q) ⟨p, Finset.mem_univ p, (recordsOf_length_le hw p).trans_lt hp⟩
  rw [sum_recordsOf_length hall] at hlt
  simp at hlt

/-! ## The blocks of a chain are always found (R32, R39) -/

/-- The free blocks and those the records hold are 128 (R28). -/
theorem freeList_length_add {s : State} (hp : PoolLaw s) :
    s.freeList.length + ∑ r : RecordIndex, (s.chainOf r).length = 128 := by
  have hlen := hp.length_eq
  rwa [List.length_append, List.length_flatMap, List.length_finRange, ← Fin.sum_univ_def] at hlen

/-- The blocks the groups are charged with are those the records hold. -/
theorem sum_blocksOf (s : State) : ∑ g : GroupNo, s.blocksOf g = ∑ r : RecordIndex, (s.chainOf r).length := by
  simp only [State.blocksOf, ← Fin.sum_univ_def]
  rw [Finset.sum_comm]
  refine Finset.sum_congr rfl fun r _ => ?_
  cases h : s.message r with
  | none => simp [State.isOfGroup, chainOf_of_none h]
  | some m => simp [State.isOfGroup, h]

/-- A group's unused quota is covered by free blocks (R39). -/
theorem le_freeList_length {s : State} (hp : PoolLaw s) (hq : QuotaLaw s) {g : GroupNo} {n : Nat}
    (hn : n ≤ (s.group g).quota - (s.group g).used) : n ≤ s.freeList.length := by
  obtain ⟨htotal, hlimit, hgroups⟩ := hq
  have hcharge (k : GroupNo) : s.blocksOf k + (if g = k then n else 0) ≤ (s.group k).quota := by
    obtain ⟨hused, _, hwithin, _⟩ := hgroups k
    split
    · subst g; omega
    · omega
  have hsum := Finset.sum_le_sum fun k (_ : k ∈ Finset.univ) => hcharge k
  rw [Finset.sum_add_distrib, sum_blocksOf, Finset.sum_ite_eq, if_pos (Finset.mem_univ g)] at hsum
  have htotal : ∑ k : GroupNo, (s.group k).quota = s.reservedTotal := by rw [htotal, Fin.sum_univ_def]
  have hpool := freeList_length_add hp
  omega

/-! ## Commands that complete -/

theorem completes_next (t : State) : Completes (.next t) := ⟨t, rfl⟩

/-- The effect of a command answers: it is no fault. -/
def Answers (effect : CoreResult) : Prop := ∃ out, effect = .ok out

theorem answers_ok (out : State × List Byte) : Answers (.ok out) := ⟨out, rfl⟩

/-- A command that fails a check is answered with its code (R171). -/
theorem answers_judged {s : State} {cs : List (Bool × ResultCode)} {effect : CoreResult}
    (h : firstFail cs = none → Answers effect) : Answers (judged s cs effect) := by
  cases hc : firstFail cs with
  | none => rw [judged_passed hc]; exact h hc
  | some code => rw [judged_refused hc]; exact answers_ok _

/-- The taking of a command completes where its effect answers. -/
theorem takeCommand_completes (p : Port) (req : Request) {effect : State → CoreResult} {s : State}
    (h : Answers (effect s)) : Completes (takeCommand p req effect s) := by
  obtain ⟨⟨t, reply⟩, he⟩ := h
  cases ht : s.takes p req with
  | false => rw [takeCommand_idle ht]; exact completes_next s
  | true => rw [takeCommand_taken ht he]; exact completes_next _

/-- A check of the list passes where none fails. -/
theorem check_passed {cs : List (Bool × ResultCode)} (h : firstFail cs = none) {b : Bool} {code : ResultCode}
    (hmem : (b, code) ∈ cs) : b = false := firstFail_none.1 h (b, code) hmem

/-- A SEND that passes every check finds its record and its blocks (R39, R47, R121). -/
theorem sendEffect_answers (p : Port) (g tag flags len dl : Byte) {s : State} (hcap : CapacityLaw s)
    (hw : WindowLaw s) (hp : PoolLaw s) (hq : QuotaLaw s)
    (hc : firstFail (sendChecks p g tag flags len dl s) = none) : Answers (sendEffect p g tag flags len dl s) := by
  have hwindow : (s.port p).sends.length < 4 := by
    simpa [Config.windowLimit] using check_passed hc (b := decide (Config.windowLimit ≤ (s.port p).sends.length))
      (code := .windowFull) (by simp [sendChecks])
  have hquota : blocksFor len.toNat ≤ (s.group (groupNo g)).quota - (s.group (groupNo g)).used := by
    simpa using check_passed hc (code := .quotaShort)
      (b := decide ((s.group (groupNo g)).quota - (s.group (groupNo g)).used < blocksFor len.toNat))
      (by simp [sendChecks])
  obtain ⟨r, hr⟩ := exists_freeRecord hcap hw hwindow
  have hblocks : ¬ s.freeList.length < blocksFor len.toNat := Nat.not_lt.2 (le_freeList_length hp hq hquota)
  simp only [sendEffect, hr, if_neg hblocks]
  exact answers_ok _

/-- A target of a record means that the record is not FREE. -/
theorem message_of_targetIs {s : State} {r : RecordIndex} {p : Port} {o : TargetOutcome} {f : Message → Bool}
    (h : s.targetIs r p o f = true) : ∃ m, s.message r = some m := by
  cases hm : s.message r with
  | none => simp [State.targetIs, hm] at h
  | some m => exact ⟨m, rfl⟩

/-- No delivery refers to a FREE record (R63). -/
theorem fetchEffect_answers (p : Port) {s : State} (hh : HandleLaw s) : Answers (fetchEffect p s) := by
  obtain ⟨_, hqueue, _⟩ := hh
  unfold fetchEffect
  split
  · exact answers_ok _
  · rename_i d rest hq
    obtain ⟨_, htarget⟩ := hqueue p d (by simp [hq])
    obtain ⟨m, hm⟩ := message_of_targetIs htarget
    simp only [hm]
    exact answers_ok _

/-- No held entry refers to a FREE record (R63, R66). -/
theorem readEffect_answers (p : Port) (index generation offset count : Byte) {s : State} (hh : HandleLaw s)
    (hc : firstFail (readChecks p index generation offset count s) = none) :
    Answers (readEffect p index generation offset count s) := by
  obtain ⟨_, _, hheld, _⟩ := hh
  have hentry : (s.heldEntry p index generation).isNone = false :=
    check_passed hc (code := .stale) (by simp [readChecks])
  obtain ⟨h, hfound⟩ := Option.isSome_iff_exists.1 (by simpa using hentry)
  obtain ⟨_, htarget⟩ := hheld p h (List.mem_of_find?_eq_some hfound)
  obtain ⟨m, hm⟩ := message_of_targetIs htarget
  simp only [readEffect, hfound, Option.bind_some, hm]
  exact answers_ok _

theorem takeEffect_answers (p : Port) (s : State) : Answers (takeEffect p s) := by
  unfold takeEffect
  split
  · exact answers_ok _
  · exact answers_ok _

theorem answerEffect_answers (p : Port) (index generation : Byte) (effect : Handle → State → State) (s : State) :
    Answers (answerEffect p index generation effect s) := by
  unfold answerEffect
  split
  · exact answers_ok _
  · exact answers_ok _

theorem execSend_completes (p : Port) (g tag flags len dl : Byte) {s : State} (hcap : CapacityLaw s)
    (hw : WindowLaw s) (hp : PoolLaw s) (hq : QuotaLaw s) : Completes (execSend p g tag flags len dl s) := by
  refine takeCommand_completes p _ ?_
  obtain ⟨out, hout⟩ := answers_judged (s := s) (sendEffect_answers p g tag flags len dl hcap hw hp hq)
  rw [hout]
  exact answers_ok _

theorem execTickTaking_completes (s : State) : Completes (execTickTaking s) := by
  unfold execTickTaking
  split
  · exact completes_next _
  · exact completes_next s

theorem execRecordExpiry_completes (r : RecordIndex) (s : State) : Completes (execRecordExpiry r s) := by
  unfold execRecordExpiry
  split
  · exact completes_next _
  · exact completes_next s

theorem execPresenceReport_completes (p : Port) (s : State) : Completes (execPresenceReport p s) := by
  unfold execPresenceReport
  split
  · exact completes_next _
  · exact completes_next s

/-- Settles O49: only SEND, FETCH and READ can stop, and the laws give each what it looks for. -/
theorem lawfulHubNeverStops : Obligations.LawfulHubNeverStops := by
  intro s i ⟨hcap, _, hhandle, hpool, hquota, _, _, _, hwindow, _⟩
  cases i with dsimp only [exec]
  | send p g tag flags len dl => exact execSend_completes p g tag flags len dl hcap hwindow hpool hquota
  | fetch p => exact takeCommand_completes p _ (answers_judged fun _ => fetchEffect_answers p hhandle)
  | read p index generation offset count =>
    exact takeCommand_completes p _ (answers_judged (readEffect_answers p index generation offset count hhandle))
  | ack p index generation code | nack p index generation code =>
    exact takeCommand_completes p _ (answers_judged fun _ => answerEffect_answers p index generation _ s)
  | take p => exact takeCommand_completes p _ (answers_judged fun _ => takeEffect_answers p s)
  | attach p | detach p | clearNotices p _ | openGroup p _ _ _ _ _ | close p _ | join p _ | leave p _ | enrol p _ _
  | expel p _ _ | resize p _ _ | groupInfo p _ | roster p | poolInfo p =>
    exact takeCommand_completes p _ (answers_judged fun _ => answers_ok _)
  | tickTaking => exact execTickTaking_completes s
  | recordExpiry r => exact execRecordExpiry_completes r s
  | presenceReport p => exact execPresenceReport_completes p s
  | hubReset | tick _ | idleSelect _ | select _ _ | deselect _ | unknownCommand _ _ | commandPost _ _ | nop _
  | status _ | clearFault _ | setMask _ _ | byteCompletion _ _ => exact completes_next _
  | _ => exact completes_next _ -- RECALL, whose constructor has the name of a Mathlib command

end Sys2Proof.Machine.MessagePool

namespace Sys2Proof.Machine.FrontEnds

open Laws MessagePool

/-! ## The law of the front-ends, transaction state by transaction state (R40, R144, R145, R148, R152, R155) -/

/-- The clauses of the law that do not depend on the transaction state: the range of the idle-select counter, the
payload of a waiting SEND, and the presence slot's level. -/
structure Steady (f : Pfe) : Prop where
  idleCount : f.idleCount ≤ 4
  payload   : f.slotPayloadWhole = true
  presence  : f.presence.level = f.filter.accepted

/-- No reply is being shifted, and the short reply area is empty (R152). -/
structure Quiet (f : Pfe) : Prop where
  shortReply : f.shortReply = []
  replyRest  : f.replyRest = []

/-- Parameters of command `c` are still to come; a staging buffer that a SEND has marked is still empty (R148). -/
structure InParam (c : CommandCode) (f : Pfe) : Prop where
  command : f.command = some c
  toCome  : 1 ≤ f.toCome
  length  : f.params.length + f.toCome = paramCount c
  marked  : f.stagingMarked = true → f.stagingInUse = true ∧ c = .send ∧ f.staging = []

/-- Payload bytes of a SEND are still to come (R148). -/
structure InPayload (f : Pfe) : Prop where
  command : f.command = some .send
  toCome  : 1 ≤ f.toCome
  length  : f.params.length = 5
  marked  : f.stagingMarked = true →
    f.stagingInUse = true ∧ f.staging.length + f.toCome = payloadBytes .send f.params

/-- What the law asks of a PFE in each transaction state. -/
def TxnLaw (f : Pfe) : TxnState → Prop
  | .idle => Quiet f ∧ f.stagingMarked = false ∧ f.sdo = none ∧ f.command = none
  | .cmd => Quiet f ∧ f.stagingMarked = false ∧ f.sel = true ∧ f.command = none
  | .param => Quiet f ∧ f.sel = true ∧ ∃ c, InParam c f
  | .payload => Quiet f ∧ f.sel = true ∧ InPayload f
  | .await => Quiet f ∧ f.stagingMarked = false ∧ f.sel = true ∧ f.slot.isSome = true
  | .reply => f.stagingMarked = false ∧ f.sel = true
  | .discard => Quiet f ∧ f.stagingMarked = false ∧ f.sel = true

theorem frontLaw_iff {f : Pfe} : FrontLaw f ↔ Steady f ∧ TxnLaw f f.txn := by
  constructor
  · rintro ⟨hsel, hidle, hcmd, hcount, hawait, hmark, hparam, hpay, hpayload, hpresence, hquiet⟩
    refine ⟨⟨hcount, hpayload, hpresence⟩, ?_⟩
    have hquiet : f.txn ≠ .reply → Quiet f := fun h => ⟨(hquiet h).1, (hquiet h).2⟩
    cases h : f.txn with simp only [h] at hsel hidle hcmd hawait hmark hparam hpay hquiet
    | param =>
      obtain ⟨hcome, hlength, hstaging⟩ := hparam trivial
      obtain ⟨c, hc⟩ : ∃ c, f.command = some c := by
        cases hc : f.command with
        | none => simp [hc] at hlength
        | some c => exact ⟨c, rfl⟩
      simp only [hc, Option.any_some, beq_iff_eq] at hlength
      refine ⟨hquiet (by decide), by simpa using hsel, c, hc, hcome, hlength, fun hm => ?_⟩
      obtain ⟨hinUse, hsend, -⟩ := hmark hm
      exact ⟨hinUse, by simpa [hc] using hsend, hstaging hm⟩
    | payload =>
      obtain ⟨hc, hlength, hcome, hstaging⟩ := hpay trivial
      exact ⟨hquiet (by decide), by simpa using hsel, hc, hcome, hlength, fun hm => ⟨(hmark hm).1, hstaging hm⟩⟩
    | _ => simp_all [TxnLaw]
  · rintro ⟨⟨hcount, hpayload, hpresence⟩, hlaw⟩
    cases h : f.txn with rw [h] at hlaw
    | param =>
      obtain ⟨⟨hshort, hrest⟩, hsel, c, hc, hcome, hlength, hmark⟩ := hlaw
      simp_all [FrontLaw]
    | payload =>
      obtain ⟨⟨hshort, hrest⟩, hsel, hc, hcome, hlength, hmark⟩ := hlaw
      simp_all [FrontLaw]
    | reply =>
      obtain ⟨hmark, hsel⟩ := hlaw
      simp_all [FrontLaw]
    | idle | cmd | await | discard =>
      obtain ⟨⟨hshort, hrest⟩, hmark, hlaw⟩ := hlaw
      simp_all [FrontLaw]


/-- The law in a known transaction state. -/
theorem txnLaw_of_frontLaw {f : Pfe} (hf : FrontLaw f) {x : TxnState} (h : f.txn = x) : Steady f ∧ TxnLaw f x :=
  h ▸ frontLaw_iff.1 hf

theorem frontLaw_of_txn {f : Pfe} {x : TxnState} (h : f.txn = x) (hsteady : Steady f) (hlaw : TxnLaw f x) :
    FrontLaw f := frontLaw_iff.2 ⟨hsteady, h ▸ hlaw⟩

/-- Outside REPLY nothing is being shifted (R152). -/
theorem quiet_of_frontLaw {f : Pfe} (hf : FrontLaw f) (h : f.txn ≠ .reply) : Quiet f := by
  obtain ⟨-, -, -, -, -, -, -, -, -, -, hquiet⟩ := hf
  exact ⟨(hquiet h).1, (hquiet h).2⟩

/-- In a transaction SELn is asserted. -/
theorem sel_of_frontLaw {f : Pfe} (hf : FrontLaw f) (h : f.txn ≠ .idle) : f.sel = true := by
  obtain ⟨hsel, -⟩ := hf
  by_contra hs
  exact h (hsel (by simpa using hs))

theorem steady_of_frontLaw {f : Pfe} (hf : FrontLaw f) : Steady f := (frontLaw_iff.1 hf).1

/-- The payload of a waiting SEND is whole: the staging buffer is in use, no later transaction has marked it, and it
holds as many bytes as the length parameter says (R40, R148). -/
theorem slotPayloadWhole_iff {f : Pfe} :
    f.slotPayloadWhole = true ↔ ∀ g tag flags len dl, f.slot = some (.send g tag flags len dl) →
      f.stagingInUse = true ∧ f.stagingMarked = false ∧ f.staging.length = len.toNat := by
  unfold Pfe.slotPayloadWhole
  split
  · rename_i hslot
    simp only [hslot, Bool.and_eq_true, Bool.not_eq_true', beq_iff_eq, and_assoc]
    exact ⟨fun h _ _ _ _ _ hsend => by cases hsend; exact h, fun h => h _ _ _ _ _ rfl⟩
  · rename_i hslot
    exact iff_of_true rfl fun g tag flags len dl h => absurd h (hslot g tag flags len dl)

/-- The payload of a waiting SEND stays whole where the slot stays, and the staging buffer unless it is marked. -/
theorem slotPayloadWhole_mono {f g : Pfe} (h : f.slotPayloadWhole = true) (hslot : g.slot = f.slot)
    (hstaging : f.stagingInUse = true → f.stagingMarked = false →
      g.stagingInUse = true ∧ g.stagingMarked = false ∧ g.staging = f.staging) : g.slotPayloadWhole = true := by
  refine slotPayloadWhole_iff.2 fun _ _ _ len _ hsend => ?_
  obtain ⟨hinUse, hmark, hlength⟩ := slotPayloadWhole_iff.1 h _ _ _ _ _ (hslot ▸ hsend)
  obtain ⟨hinUse', hmark', hsame⟩ := hstaging hinUse hmark
  exact ⟨hinUse', hmark', hsame ▸ hlength⟩

/-! ## Faults, select and deselect -/

/-- Driving ATNn touches nothing the law speaks of. -/
theorem driveAtn_frontLaw {f : Pfe} (m : Summary) (hf : FrontLaw f) : FrontLaw (f.driveAtn m) := hf

/-- The release of the staging buffer by the transaction that marked it, in one equation (R148, R154). -/
theorem releaseIfMarked_eq (f : Pfe) :
    f.releaseIfMarked = { f with stagingInUse := f.stagingInUse && !f.stagingMarked, stagingMarked := false } := by
  unfold Pfe.releaseIfMarked
  cases f
  split <;> simp_all

theorem releaseIfMarked_steady {f : Pfe} (h : Steady f) : Steady f.releaseIfMarked := by
  rw [releaseIfMarked_eq]
  exact ⟨h.idleCount, slotPayloadWhole_mono h.payload rfl fun hu hm => ⟨by simp [hm, hu], rfl, rfl⟩, h.presence⟩

theorem recordFault_steady {f : Pfe} (code : FaultCode) (h : Steady f) : Steady (f.recordFault code) :=
  ⟨h.idleCount, h.payload, h.presence⟩

theorem idleFault_frontLaw {f : Pfe} (hf : FrontLaw f) : FrontLaw f.idleFault := by
  cases hd : f.idleDue with
  | false => rwa [idleFault_notDue hd]
  | true =>
    obtain ⟨htxn, -⟩ := (idleDue_iff f).1 hd
    have hquiet : Quiet f := quiet_of_frontLaw hf fun h => by simp [h] at htxn
    have hsel : f.sel = true := sel_of_frontLaw hf fun h => by simp [h] at htxn
    have hsteady := releaseIfMarked_steady (recordFault_steady .idleSelect (steady_of_frontLaw hf))
    rw [Pfe.idleFault, if_pos hd]
    rw [releaseIfMarked_eq] at hsteady ⊢
    exact frontLaw_iff.2
      ⟨⟨hsteady.idleCount, hsteady.payload, hsteady.presence⟩, ⟨hquiet.shortReply, hquiet.replyRest⟩, rfl, hsel⟩

theorem select_frontLaw {f : Pfe} (m : Summary) (sckHigh : Bool) (hf : FrontLaw f) :
    FrontLaw (f.select m sckHigh) := by
  unfold Pfe.select
  split
  · exact hf
  · rename_i hsel
    have hidle : f.txn = .idle := hf.1 (by simpa using hsel)
    obtain ⟨hsteady, hquiet, hmark, hsdo, hcommand⟩ := txnLaw_of_frontLaw hf hidle
    split
    · exact frontLaw_of_txn hidle ⟨hsteady.idleCount, hsteady.payload, hsteady.presence⟩
        ⟨⟨hquiet.shortReply, hquiet.replyRest⟩, hmark, hsdo, hcommand⟩
    · exact frontLaw_iff.2 ⟨⟨Nat.zero_le 4, slotPayloadWhole_mono hsteady.payload rfl fun hu _ => ⟨hu, rfl, rfl⟩,
        hsteady.presence⟩, ⟨rfl, rfl⟩, rfl, rfl, rfl⟩

/-- A deselect's fault keeps the payload of a waiting SEND whole (R148, R154). -/
theorem deselectFault_steady {f : Pfe} (h : Steady f) : Steady f.deselectFault := by
  unfold Pfe.deselectFault
  split
  · exact releaseIfMarked_steady (recordFault_steady _ h)
  · exact releaseIfMarked_steady (recordFault_steady _ h)
  all_goals exact h

theorem deselect_frontLaw {f : Pfe} (hf : FrontLaw f) : FrontLaw f.deselect := by
  unfold Pfe.deselect
  split
  · have hsteady := deselectFault_steady (steady_of_frontLaw hf)
    exact frontLaw_iff.2 ⟨⟨hsteady.idleCount, slotPayloadWhole_mono hsteady.payload rfl fun hu _ => ⟨hu, rfl, rfl⟩,
      hsteady.presence⟩, ⟨rfl, rfl⟩, rfl, rfl, rfl⟩
  · exact hf

/-! ## The completion of a command (R145, R148, R149) -/

/-- The commands that the PFE answers by itself (10 section 10.1). -/
def localCommands : List CommandCode := [.nop, .status, .clearFault, .setMask, .recall]

/-- A core command with all its parameter bytes is a request; it is a SEND for SEND alone, whose fourth parameter is
the payload length (R148, R149). -/
theorem exists_requestOf {c : CommandCode} {params : List Byte} (hc : c ∉ localCommands)
    (hlength : params.length = paramCount c) : ∃ req, requestOf c params = some req ∧
      ∀ g tag flags len dl, req = .send g tag flags len dl → c = .send ∧ len = params.getD 3 0 := by
  cases c with
  | attach | detach | roster | poolInfo | fetch | take => match params, hlength with | [], _ => exact ⟨_, rfl, nofun⟩
  | clearNotices | close | join | leave | groupInfo => match params, hlength with | [_], _ => exact ⟨_, rfl, nofun⟩
  | enrol | expel | resize => match params, hlength with | [_, _], _ => exact ⟨_, rfl, nofun⟩
  | ack | nack => match params, hlength with | [_, _, _], _ => exact ⟨_, rfl, nofun⟩
  | read => match params, hlength with | [_, _, _, _], _ => exact ⟨_, rfl, nofun⟩
  | openGroup => match params, hlength with | [_, _, _, _, _], _ => exact ⟨_, rfl, nofun⟩
  | send =>
    match params, hlength with
    | [_, _, _, _, _], _ => exact ⟨_, rfl, fun _ _ _ _ _ h => by cases h; exact ⟨rfl, rfl⟩⟩
  | _ => simp [localCommands] at hc

/-- A core command that is complete is posted or answered BUSY (R149). -/
theorem complete_of_core (m : Summary) (f : Pfe) {c : CommandCode} (hc : c ∉ localCommands) :
    f.complete m c = f.completeCore c := by
  revert hc
  cases c <;> simp [localCommands, Pfe.complete]

/-- Every byte of command `c` has been received: its parameters, and the payload of a SEND that marked the staging
buffer (R145, R148). -/
structure Received (c : CommandCode) (f : Pfe) : Prop where
  steady : Steady f
  quiet  : Quiet f
  sel    : f.sel = true
  length : f.params.length = paramCount c
  marked : f.stagingMarked = true → f.stagingInUse = true ∧ c = .send ∧ f.staging.length = (f.params.getD 3 0).toNat

theorem replyShort_frontLaw {f : Pfe} (reply : List Byte) (hsteady : Steady f) (hmark : f.stagingMarked = false)
    (hsel : f.sel = true) : FrontLaw (f.replyShort reply) :=
  frontLaw_iff.2 ⟨⟨hsteady.idleCount, hsteady.payload, hsteady.presence⟩, hmark, hsel⟩

theorem answerBusy_frontLaw {f : Pfe} (hsteady : Steady f) (hsel : f.sel = true) : FrontLaw f.answerBusy := by
  have hreleased := releaseIfMarked_steady hsteady
  rw [Pfe.answerBusy]
  rw [releaseIfMarked_eq] at hreleased ⊢
  exact replyShort_frontLaw _ hreleased rfl hsel

/-- A SEND is posted with its payload whole in the staging buffer; every other request needs none (R40, R149). -/
theorem post_frontLaw {c : CommandCode} {f : Pfe} {req : Request} (hf : Received c f)
    (hreq : ∀ g tag flags len dl, req = .send g tag flags len dl → c = .send ∧ len = f.params.getD 3 0)
    (hmark : c = .send → f.stagingMarked = true) : FrontLaw (f.post req) := by
  have hpayload : (f.post req).slotPayloadWhole = true := by
    refine slotPayloadWhole_iff.2 fun g tag flags len dl hslot => ?_
    obtain ⟨hc, rfl⟩ := hreq g tag flags len dl (Option.some.inj hslot)
    obtain ⟨hinUse, -, hlength⟩ := hf.marked (hmark hc)
    exact ⟨hinUse, rfl, hlength⟩
  exact frontLaw_iff.2 ⟨⟨hf.steady.idleCount, hpayload, hf.steady.presence⟩,
    ⟨hf.quiet.shortReply, hf.quiet.replyRest⟩, rfl, hf.sel, rfl⟩

theorem completeCore_frontLaw {c : CommandCode} {f : Pfe} (hf : Received c f) (hc : c ∉ localCommands) :
    FrontLaw (f.completeCore c) := by
  obtain ⟨req, hreq, hsend⟩ := exists_requestOf hc hf.length
  simp only [Pfe.completeCore, hreq]
  split
  · exact answerBusy_frontLaw hf.steady hf.sel
  · rename_i hpost
    refine post_frontLaw hf hsend fun hc => ?_
    simp only [hc, Bool.or_eq_true, not_or] at hpost
    simpa using hpost.2

/-- A local command is answered from the short reply area, or RECALL by the reply store (R145, R152). -/
theorem completeLocal_frontLaw (m : Summary) {c : CommandCode} {f : Pfe} (hf : Received c f)
    (hc : c ∈ localCommands) : FrontLaw (f.complete m c) := by
  have hmark : f.stagingMarked = false := by
    by_contra h
    obtain ⟨-, rfl, -⟩ := hf.marked (by simpa using h)
    simp [localCommands] at hc
  have hanswer (reply : List Byte) : FrontLaw (f.replyShort reply) := replyShort_frontLaw reply hf.steady hmark hf.sel
  have hsetMask : FrontLaw f.completeSetMask := by
    unfold Pfe.completeSetMask
    split
    · exact hanswer _
    · exact hanswer _
  have hrecall : FrontLaw f.completeRecall := by
    unfold Pfe.completeRecall
    split
    · exact hanswer _
    · exact frontLaw_iff.2 ⟨⟨hf.steady.idleCount, hf.steady.payload, hf.steady.presence⟩, hmark, hf.sel⟩
  simp only [localCommands, List.mem_cons, List.not_mem_nil, or_false] at hc
  obtain rfl | rfl | rfl | rfl | rfl := hc
  · exact hanswer _
  · exact hanswer _
  · exact hanswer _
  · exact hsetMask
  · exact hrecall

theorem complete_frontLaw (m : Summary) {c : CommandCode} {f : Pfe} (hf : Received c f) :
    FrontLaw (f.complete m c) := by
  by_cases hc : c ∈ localCommands
  · exact completeLocal_frontLaw m hf hc
  · rw [complete_of_core m f hc]
    exact completeCore_frontLaw hf hc

/-! ## The completion of a byte (R145, R147, R148) -/

/-- A row of the command code table gives its command's number of parameters (10 section 10.1). -/
theorem decodeCommand_params {b : Byte} {row : CommandRow} (h : decodeCommand b = some row) :
    row.params = paramCount row.command := by
  have hall : ∀ row ∈ commandTable, row.params = paramCount row.command := by decide
  exact hall row (List.mem_of_find?_eq_some h)

/-- The byte of command `c` has just been received: no parameter yet, and the staging buffer empty where a SEND has
marked it (R148). -/
structure Begun (c : CommandCode) (f : Pfe) : Prop where
  steady  : Steady f
  quiet   : Quiet f
  sel     : f.sel = true
  command : f.command = some c
  params  : f.params = []
  marked  : f.stagingMarked = true → f.stagingInUse = true ∧ c = .send ∧ f.staging = []

/-- A SEND's command byte marks the staging buffer only where none is in use, so a waiting SEND keeps its payload
(R148). -/
theorem markStaging_begun {f : Pfe} {c : CommandCode} (hf : FrontLaw f) (h : f.txn = .cmd) :
    Begun c ({ f with command := some c, params := [] }.markStaging c) := by
  obtain ⟨hsteady, hquiet, hmark, hsel, -⟩ := txnLaw_of_frontLaw hf h
  unfold Pfe.markStaging
  split
  · rename_i hmarks
    obtain ⟨hsend, hfree⟩ := hmarks
    have hwhole (g : Pfe) (hslot : g.slot = f.slot) : g.slotPayloadWhole = true :=
      slotPayloadWhole_mono hsteady.payload hslot fun hu => absurd hu (by simpa using hfree)
    exact ⟨⟨hsteady.idleCount, hwhole _ rfl, hsteady.presence⟩, ⟨hquiet.shortReply, hquiet.replyRest⟩, hsel, rfl, rfl,
      fun _ => ⟨rfl, hsend, rfl⟩⟩
  · exact ⟨⟨hsteady.idleCount, hsteady.payload, hsteady.presence⟩, ⟨hquiet.shortReply, hquiet.replyRest⟩, hsel, rfl,
      rfl, fun hm => by simp [hmark] at hm⟩

/-- A command without parameters is complete with its command byte (R145). -/
theorem Begun.received {c : CommandCode} {f : Pfe} (h : Begun c f) (hnone : paramCount c = 0) : Received c f := by
  refine ⟨h.steady, h.quiet, h.sel, by rw [h.params, hnone]; rfl, fun hm => ?_⟩
  obtain ⟨-, rfl, -⟩ := h.marked hm
  cases hnone

theorem commandByte_frontLaw (m : Summary) (b : Byte) {f : Pfe} (hf : FrontLaw f) (h : f.txn = .cmd) :
    FrontLaw (f.commandByte m b) := by
  unfold Pfe.commandByte
  split
  next =>
    obtain ⟨hsteady, hquiet, hmark, hsel, -⟩ := txnLaw_of_frontLaw hf h
    exact frontLaw_iff.2 ⟨⟨hsteady.idleCount, hsteady.payload, hsteady.presence⟩,
      ⟨hquiet.shortReply, hquiet.replyRest⟩, hmark, hsel⟩
  next row hrow =>
    dsimp only
    have hbegun := markStaging_begun (c := row.command) hf h
    have hcount := decodeCommand_params hrow
    split
    next hnone => exact complete_frontLaw m (hbegun.received (hcount ▸ hnone))
    next hsome =>
      refine frontLaw_iff.2 ⟨⟨hbegun.steady.idleCount, hbegun.steady.payload, hbegun.steady.presence⟩,
        ⟨hbegun.quiet.shortReply, hbegun.quiet.replyRest⟩, hbegun.sel, row.command, hbegun.command,
        Nat.one_le_iff_ne_zero.2 hsome, ?_, hbegun.marked⟩
      simpa [hbegun.params] using hcount

/-- Only SEND has a payload (R148). -/
theorem eq_send_of_payloadBytes {c : CommandCode} {params : List Byte} (h : 1 ≤ payloadBytes c params) :
    c = .send := by
  by_contra hc
  simp [payloadBytes, hc] at h

theorem parameterByte_frontLaw (m : Summary) (b : Byte) {f : Pfe} (hf : FrontLaw f) (h : f.txn = .param) :
    FrontLaw (f.parameterByte m b) := by
  obtain ⟨hsteady, hquiet, hsel, c, hcommand, hcome, hlength, hmark⟩ := txnLaw_of_frontLaw hf h
  have hquiet' : Quiet { f with params := f.params ++ [b], toCome := f.toCome - 1 } :=
    ⟨hquiet.shortReply, hquiet.replyRest⟩
  have hsteady' : Steady { f with params := f.params ++ [b], toCome := f.toCome - 1 } :=
    ⟨hsteady.idleCount, hsteady.payload, hsteady.presence⟩
  unfold Pfe.parameterByte
  split
  · rename_i hk
    simp [hcommand] at hk
  rename_i k hk
  obtain rfl : c = k := Option.some.inj (hcommand.symm.trans hk)
  dsimp only
  split
  · rename_i hmore
    have hlength' : (f.params ++ [b]).length + (f.toCome - 1) = paramCount c := by simp; omega
    exact frontLaw_of_txn h hsteady' ⟨hquiet', hsel, c, hcommand, hmore, hlength', hmark⟩
  · rename_i hlast
    have hall : (f.params ++ [b]).length = paramCount c := by simp; omega
    split
    · rename_i hpay
      obtain rfl := eq_send_of_payloadBytes hpay
      refine frontLaw_iff.2 ⟨⟨hsteady.idleCount, hsteady.payload, hsteady.presence⟩,
        ⟨hquiet.shortReply, hquiet.replyRest⟩, hsel, hcommand, hpay, hall, fun hm => ?_⟩
      obtain ⟨hinUse, -, hempty⟩ := hmark hm
      exact ⟨hinUse, by simp [hempty]⟩
    · rename_i hnone
      refine complete_frontLaw m ⟨hsteady', hquiet', hsel, hall, fun hm => ?_⟩
      obtain ⟨hinUse, rfl, hempty⟩ := hmark hm
      exact ⟨hinUse, rfl, by simpa [hempty, payloadBytes, eq_comm] using hnone⟩

theorem payloadByte_frontLaw (m : Summary) (b : Byte) {f : Pfe} (hf : FrontLaw f) (h : f.txn = .payload) :
    FrontLaw (f.payloadByte m b) := by
  obtain ⟨hsteady, hquiet, hsel, hcommand, hcome, hlength, hmark⟩ := txnLaw_of_frontLaw hf h
  have hsteady' : Steady
      { f with staging := if f.stagingMarked then f.staging ++ [b] else f.staging, toCome := f.toCome - 1 } :=
    ⟨hsteady.idleCount, slotPayloadWhole_mono hsteady.payload rfl fun hu hm => ⟨hu, hm, by simp [hm]⟩,
      hsteady.presence⟩
  have hquiet' : Quiet
      { f with staging := if f.stagingMarked then f.staging ++ [b] else f.staging, toCome := f.toCome - 1 } :=
    ⟨hquiet.shortReply, hquiet.replyRest⟩
  have hmark' (hm : f.stagingMarked = true) : f.stagingInUse = true ∧
      (if f.stagingMarked then f.staging ++ [b] else f.staging).length + (f.toCome - 1) =
        payloadBytes .send f.params := by
    obtain ⟨hinUse, hbytes⟩ := hmark hm
    exact ⟨hinUse, by rw [if_pos hm, List.length_append, List.length_singleton]; omega⟩
  unfold Pfe.payloadByte
  split
  · rename_i hk
    simp [hcommand] at hk
  rename_i k hk
  obtain rfl : .send = k := Option.some.inj (hcommand.symm.trans hk)
  dsimp only
  split
  · rename_i hmore
    exact frontLaw_of_txn h hsteady' ⟨hquiet', hsel, hcommand, hmore, hlength, hmark'⟩
  · rename_i hlast
    refine complete_frontLaw m ⟨hsteady', hquiet', hsel, hlength, fun hm => ?_⟩
    obtain ⟨hinUse, hbytes⟩ := hmark' hm
    rw [show f.toCome - 1 = 0 by omega, Nat.add_zero] at hbytes
    exact ⟨hinUse, rfl, hbytes⟩

theorem acceptByte_frontLaw (m : Summary) (b : Byte) {f : Pfe} (hf : FrontLaw f) : FrontLaw (f.acceptByte m b) := by
  unfold Pfe.acceptByte
  cases h : f.txn with
  | cmd => exact commandByte_frontLaw m b hf h
  | param => exact parameterByte_frontLaw m b hf h
  | payload => exact payloadByte_frontLaw m b hf h
  | idle | await | reply | discard => exact hf

/-- The byte that begins on SDOn does not matter to the law within a transaction (R144). -/
theorem nextOut_frontLaw {f : Pfe} (hf : FrontLaw f) : FrontLaw f.nextOut := by
  have hshown (out : Byte) (h : f.txn ≠ .idle) : FrontLaw { f with sdo := some out } := by
    obtain ⟨hsel, -, hrest⟩ := hf
    exact ⟨hsel, fun hidle => absurd hidle h, hrest⟩
  unfold Pfe.nextOut
  split
  next => exact hf
  next => exact hf
  next h => exact hshown _ (by simp [h])
  next h => exact hshown _ (by simp [h])
  next h => exact hshown _ (by simp [h])
  next h => exact hshown _ (by simp [h])
  next h =>
    obtain ⟨hsteady, hmark, hsel⟩ := txnLaw_of_frontLaw hf h
    exact frontLaw_of_txn h ⟨hsteady.idleCount, hsteady.payload, hsteady.presence⟩ ⟨hmark, hsel⟩

theorem byte_frontLaw (m : Summary) (b : Byte) {f : Pfe} (hf : FrontLaw f) : FrontLaw (f.byte m b) := by
  have hrecorded := idleFault_frontLaw hf
  unfold Pfe.byte
  dsimp only
  split
  · exact hrecorded
  · obtain ⟨hsel, hidle, hcmd, hcount, hrest⟩ := hrecorded
    exact nextOut_frontLaw (acceptByte_frontLaw m b ⟨hsel, hidle, hcmd, Nat.zero_le 4, hrest⟩)

/-! ## Ticks, presence, and the taking of a request (R127, R151, R155, R156) -/

/-- After an idle-select fault has had its turn, none is due (R155). -/
theorem idleFault_idleDue (f : Pfe) : f.idleFault.idleDue = false := by
  by_contra h
  have h : f.idleFault.idleDue = true := by simpa using h
  have hdiscard : f.idleFault.idleFault.txn = .discard := by rw [Pfe.idleFault, if_pos h]
  rw [idleFault_idempotent] at hdiscard
  simp [Pfe.idleDue, Pfe.receiving, hdiscard] at h

/-- An accepted level is the presence slot's level (R127, R156). -/
theorem samplePresence_frontLaw {f : Pfe} (sample : Bool) (hf : FrontLaw f) : FrontLaw (f.samplePresence sample) := by
  obtain ⟨hsel, hidle, hcmd, hcount, hawait, hmark, hparam, hpay, hpayload, hpresence, hquiet⟩ := hf
  have haccept : (f.presence.accept sample).level = sample := by
    unfold PresenceSlot.accept
    cases sample <;> rfl
  unfold Pfe.samplePresence
  split
  · exact ⟨hsel, hidle, hcmd, hcount, hawait, hmark, hparam, hpay, hpayload, haccept, hquiet⟩
  · exact ⟨hsel, hidle, hcmd, hcount, hawait, hmark, hparam, hpay, hpayload, hpresence, hquiet⟩

/-- The idle-select counter stays within 4 where no fault is due (R155). -/
theorem countIdle_frontLaw {f : Pfe} (hf : FrontLaw f) (hdue : f.idleDue = false) : FrontLaw f.countIdle := by
  obtain ⟨hsel, hidle, hcmd, hcount, hrest⟩ := hf
  unfold Pfe.countIdle
  split
  · rename_i hreceiving
    have hbelow : f.idleCount ≠ 4 := by simpa [Pfe.idleDue, hreceiving] using hdue
    exact ⟨hsel, hidle, hcmd, by show f.idleCount + 1 ≤ 4; omega, hrest⟩
  · exact ⟨hsel, hidle, hcmd, hcount, hrest⟩

theorem tick_frontLaw {f : Pfe} (sample : Bool) (hf : FrontLaw f) : FrontLaw (f.tick sample) := by
  have hdue : (f.idleFault.samplePresence sample).idleDue = false := by
    unfold Pfe.samplePresence
    split <;> exact idleFault_idleDue f
  exact countIdle_frontLaw (samplePresence_frontLaw sample (idleFault_frontLaw hf)) hdue

/-- A presence report leaves the level (R127). -/
theorem takePresence_frontLaw {f : Pfe} (hf : FrontLaw f) : FrontLaw f.takePresence := hf

/-- The core's reply empties the slot, and ends AWAIT (R151). -/
theorem writeReply_frontLaw {f : Pfe} (reply : List Byte) (hf : FrontLaw f) : FrontLaw (f.writeReply reply) := by
  have hempty (g : Pfe) (h : g.slot = none) : g.slotPayloadWhole = true :=
    slotPayloadWhole_iff.2 fun _ _ _ _ _ hslot => by simp [h] at hslot
  unfold Pfe.writeReply
  dsimp only
  split
  · rename_i hawait
    obtain ⟨hsteady, -, hmark, hsel, -⟩ := txnLaw_of_frontLaw hf hawait
    exact frontLaw_iff.2 ⟨⟨hsteady.idleCount, hempty _ rfl, hsteady.presence⟩, hmark, hsel⟩
  · rename_i hother
    obtain ⟨hsel, hidle, hcmd, hcount, -, hmark, hparam, hpay, -, hpresence, hquiet⟩ := hf
    exact ⟨hsel, hidle, hcmd, hcount, fun h => absurd h hother, hmark, hparam, hpay, hempty _ rfl, hpresence, hquiet⟩

/-- The taking of a waiting SEND releases its staging buffer, which no later transaction has marked (R148). -/
theorem stagingReleased_frontLaw {f : Pfe} (hf : FrontLaw f) (hslot : f.slot = none)
    (hmark : f.stagingMarked = false) :
    FrontLaw f.stagingReleased := by
  obtain ⟨hsel, hidle, hcmd, hcount, hawait, hmarked, hparam, hpay, -, hrest⟩ := hf
  have hpayload : f.stagingReleased.slotPayloadWhole = true :=
    slotPayloadWhole_iff.2 fun _ _ _ _ _ (h : f.slot = _) => by simp [hslot] at h
  have hfree (h : f.stagingMarked = true) : f.stagingReleased.stagingInUse = true := by simp [hmark] at h
  exact ⟨hsel, hidle, hcmd, hcount, hawait, fun h => ⟨hfree h, (hmarked h).2⟩, hparam, hpay, hpayload, hrest⟩

theorem writeReply_slot (reply : List Byte) (f : Pfe) : (f.writeReply reply).slot = none := by
  unfold Pfe.writeReply
  dsimp only
  split <;> rfl

theorem writeReply_stagingMarked (reply : List Byte) (f : Pfe) :
    (f.writeReply reply).stagingMarked = f.stagingMarked := by
  unfold Pfe.writeReply
  dsimp only
  split <;> rfl

theorem stagingReleased_writeReply (reply : List Byte) (f : Pfe) :
    f.stagingReleased.writeReply reply = (f.writeReply reply).stagingReleased := by
  by_cases h : f.txn = .await <;> simp [Pfe.writeReply, Pfe.stagingReleased, h]

/-! ## A posted request stays in its slot until its taking (R149, R152) -/

/-- A slot that holds a request in `f` holds one in `g`. -/
def KeepsRequest (f g : Pfe) : Prop := f.slot.isSome = true → g.slot.isSome = true

theorem KeepsRequest.of_eq {f g : Pfe} (h : g.slot = f.slot) : KeepsRequest f g := fun hf => h ▸ hf

@[simp] theorem releaseIfMarked_slot (f : Pfe) : f.releaseIfMarked.slot = f.slot := by rw [releaseIfMarked_eq]

@[simp] theorem idleFault_slot (f : Pfe) : f.idleFault.slot = f.slot := by
  unfold Pfe.idleFault
  split
  · exact releaseIfMarked_slot _
  · rfl

theorem select_slot (m : Summary) (sckHigh : Bool) (f : Pfe) : (f.select m sckHigh).slot = f.slot := by
  unfold Pfe.select
  split
  · rfl
  · split <;> rfl

theorem deselect_slot (f : Pfe) : f.deselect.slot = f.slot := by
  have hfault : f.deselectFault.slot = f.slot := by
    unfold Pfe.deselectFault
    split
    · exact releaseIfMarked_slot _
    · exact releaseIfMarked_slot _
    all_goals rfl
  unfold Pfe.deselect
  split
  · exact hfault
  · rfl

theorem tick_slot (sample : Bool) (f : Pfe) : (f.tick sample).slot = f.slot := by
  have hsample (g : Pfe) : (g.samplePresence sample).slot = g.slot := by
    unfold Pfe.samplePresence
    split <;> rfl
  have hcount (g : Pfe) : g.countIdle.slot = g.slot := by
    unfold Pfe.countIdle
    split <;> rfl
  rw [Pfe.tick, hcount, hsample, idleFault_slot]

theorem completeCore_keepsRequest (c : CommandCode) (f : Pfe) : KeepsRequest f (f.completeCore c) := by
  unfold Pfe.completeCore
  split
  · split
    · exact .of_eq (releaseIfMarked_slot f)
    · exact fun _ => rfl
  · exact .of_eq rfl

theorem completeLocal_slot (m : Summary) (f : Pfe) {c : CommandCode} (hc : c ∈ localCommands) :
    (f.complete m c).slot = f.slot := by
  have hsetMask : f.completeSetMask.slot = f.slot := by
    unfold Pfe.completeSetMask
    split <;> rfl
  have hrecall : f.completeRecall.slot = f.slot := by
    unfold Pfe.completeRecall
    split <;> rfl
  simp only [localCommands, List.mem_cons, List.not_mem_nil, or_false] at hc
  obtain rfl | rfl | rfl | rfl | rfl := hc
  · rfl
  · rfl
  · rfl
  · exact hsetMask
  · exact hrecall

theorem complete_keepsRequest (m : Summary) (c : CommandCode) (f : Pfe) : KeepsRequest f (f.complete m c) := by
  by_cases hc : c ∈ localCommands
  · exact .of_eq (completeLocal_slot m f hc)
  · rw [complete_of_core m f hc]
    exact completeCore_keepsRequest c f

theorem commandByte_keepsRequest (m : Summary) (b : Byte) (f : Pfe) : KeepsRequest f (f.commandByte m b) := by
  have hmark (c : CommandCode) (g : Pfe) : (g.markStaging c).slot = g.slot := by
    unfold Pfe.markStaging
    split <;> rfl
  unfold Pfe.commandByte
  split
  · exact .of_eq rfl
  · dsimp only
    split
    · exact fun hf => complete_keepsRequest m _ _ (KeepsRequest.of_eq (hmark _ _) hf)
    · exact .of_eq (hmark _ _)

theorem parameterByte_keepsRequest (m : Summary) (b : Byte) (f : Pfe) : KeepsRequest f (f.parameterByte m b) := by
  unfold Pfe.parameterByte
  split
  · exact .of_eq rfl
  · dsimp only
    split
    · exact .of_eq rfl
    · split
      · exact .of_eq rfl
      · exact fun hf => complete_keepsRequest m _ _ hf

theorem payloadByte_keepsRequest (m : Summary) (b : Byte) (f : Pfe) : KeepsRequest f (f.payloadByte m b) := by
  unfold Pfe.payloadByte
  split
  · exact .of_eq rfl
  · dsimp only
    split
    · exact .of_eq rfl
    · exact fun hf => complete_keepsRequest m _ _ hf

theorem acceptByte_keepsRequest (m : Summary) (b : Byte) (f : Pfe) : KeepsRequest f (f.acceptByte m b) := by
  unfold Pfe.acceptByte
  cases f.txn with
  | cmd => exact commandByte_keepsRequest m b f
  | param => exact parameterByte_keepsRequest m b f
  | payload => exact payloadByte_keepsRequest m b f
  | idle | await | reply | discard => exact .of_eq rfl

theorem byte_keepsRequest (m : Summary) (b : Byte) (f : Pfe) : KeepsRequest f (f.byte m b) := by
  have hnext (g : Pfe) : g.nextOut.slot = g.slot := by
    unfold Pfe.nextOut
    split <;> rfl
  have hrecorded : KeepsRequest f f.idleFault := .of_eq (idleFault_slot f)
  unfold Pfe.byte
  dsimp only
  split
  · exact hrecorded
  · exact fun hf => KeepsRequest.of_eq (hnext _) (acceptByte_keepsRequest m b _ (hrecorded hf))

/-! ## The laws under the events of a PFE -/

theorem pfeEvent_frontEndsLaw (p : Port) {act : Summary → Pfe → Pfe} (hact : ∀ m f, FrontLaw f → FrontLaw (act m f))
    {s : State} (hs : FrontEndsLaw s) : FrontEndsLaw (pfeEvent p act s) := by
  intro q
  by_cases h : p = q
  · subst h
    rw [pfeEvent_pfe_same]
    exact driveAtn_frontLaw _ (hact _ _ (hs p))
  · rw [pfeEvent_pfe_ne p act s q h]
    exact hs q

theorem pfeEvent_keepsRequest (p : Port) {act : Summary → Pfe → Pfe} (hact : ∀ m f, KeepsRequest f (act m f))
    (s : State) (q : Port) : KeepsRequest (s.pfe q) ((pfeEvent p act s).pfe q) := by
  by_cases h : p = q
  · subst h
    rw [pfeEvent_pfe_same]
    exact hact _ _
  · exact .of_eq (by rw [pfeEvent_pfe_ne p act s q h])

theorem pfeEvent_underwayLaw (p : Port) {act : Summary → Pfe → Pfe} (hact : ∀ m f, KeepsRequest f (act m f))
    {s : State} (hs : UnderwayLaw s) : UnderwayLaw (pfeEvent p act s) := fun q hq =>
  pfeEvent_keepsRequest p hact s q (hs q hq)

theorem byteEventIf_frontEndsLaw (p : Port) (case : Pfe → Bool) (b : Byte) {s : State} (hs : FrontEndsLaw s) :
    FrontEndsLaw (byteEventIf p case b s) := by
  obtain ⟨_, h⟩ | ⟨_, h⟩ := byteEventIf_cases p case b s <;> rw [h]
  · exact pfeEvent_frontEndsLaw p (fun m _ => byte_frontLaw m b) hs
  · exact hs

theorem byteEventIf_keepsRequest (p : Port) (case : Pfe → Bool) (b : Byte) (s : State) (q : Port) :
    KeepsRequest (s.pfe q) ((byteEventIf p case b s).pfe q) := by
  obtain ⟨_, h⟩ | ⟨_, h⟩ := byteEventIf_cases p case b s <;> rw [h]
  · exact pfeEvent_keepsRequest p (fun m f => byte_keepsRequest m b f) s q
  · exact .of_eq rfl

theorem byteEventIf_underway (p : Port) (case : Pfe → Bool) (b : Byte) (s : State) :
    (byteEventIf p case b s).underway = s.underway := by
  obtain ⟨_, h⟩ | ⟨_, h⟩ := byteEventIf_cases p case b s <;> rw [h]
  rfl

theorem byteEventIf_underwayLaw (p : Port) (case : Pfe → Bool) (b : Byte) {s : State} (hs : UnderwayLaw s) :
    UnderwayLaw (byteEventIf p case b s) := fun q hq =>
  byteEventIf_keepsRequest p case b s q (hs q (byteEventIf_underway p case b s ▸ hq))

/-- A command slot that the arbiter grants holds a request (R150, R152). -/
theorem slot_of_grant {s : State} (hs : UnderwayLaw s) {p : Port} (h : s.grant = some (.command p)) :
    (s.pfe p).slot.isSome = true := by
  unfold State.grant at h
  split at h
  · cases h
  · split at h
    next q hq =>
      cases h
      exact hs p hq
    next =>
      have hrequests : s.requests (.command p) = true := List.find?_some h
      simp only [State.requests, Bool.and_eq_true] at hrequests
      exact hrequests.1

/-- A RECALL marks a taking only where the arbiter grants its slot, which then holds a request (R152). -/
theorem noteUnderway_underwayLaw (p : Port) (granted : Bool) {s t : State} (hs : UnderwayLaw s) (ht : UnderwayLaw t)
    (hkeep : KeepsRequest (s.pfe p) (t.pfe p)) : UnderwayLaw (noteUnderway p granted s t) := by
  unfold noteUnderway
  split
  · rename_i hnoted
    simp only [Bool.and_eq_true, beq_iff_eq] at hnoted
    intro q hq
    obtain rfl : p = q := Option.some.inj hq
    exact hkeep (slot_of_grant hs hnoted.2)
  · exact ht

theorem noteUnderway_frontEndsLaw (p : Port) (granted : Bool) (s : State) {t : State} (ht : FrontEndsLaw t) :
    FrontEndsLaw (noteUnderway p granted s t) := by
  unfold noteUnderway
  split
  · exact ht
  · exact ht

/-! ## The laws under takings -/

/-- Where no taking is in progress the law of the taking in progress says nothing. -/
theorem underwayLaw_of_none {s : State} (h : s.underway = none) : UnderwayLaw s := fun p hp => by simp [h] at hp

/-- The taking of a command slot ends the taking in progress (R150, R152). -/
theorem takeCommand_underwayLaw {p : Port} {req : Request} {effect : State → CoreResult} {s : State}
    (hs : UnderwayLaw s) : OnNext (takeCommand p req effect s) UnderwayLaw := by
  intro u hu
  obtain ⟨_, rfl⟩ | ⟨_, t, reply, _, rfl⟩ := takeCommand_cases hu
  · exact hs
  · exact underwayLaw_of_none (by simp [afterTaking, State.granted])

/-- Whatever tables the effect of a command gives, the PFEs are as in `s`. -/
def EffectKeepsPfes (s : State) (effect : CoreResult) : Prop :=
  ∀ t reply, effect = .ok (t, reply) → ∀ q, t.pfe q = s.pfe q

theorem EffectKeepsPfes.ok {s t : State} (reply : List Byte) (h : ∀ q, t.pfe q = s.pfe q) :
    EffectKeepsPfes s (.ok (t, reply)) := by
  intro u _ hu
  cases hu
  exact h

theorem EffectKeepsPfes.error (s : State) (f : Fault) : EffectKeepsPfes s (.error f) := by
  intro u _ hu
  cases hu

theorem EffectKeepsPfes.judged {s : State} {effect : CoreResult} (cs : List (Bool × ResultCode))
    (h : EffectKeepsPfes s effect) : EffectKeepsPfes s (judged s cs effect) := by
  intro t reply ht
  obtain ⟨_, _, rfl, _⟩ | ⟨_, he⟩ := judged_cases ht
  · exact fun _ => rfl
  · exact h t reply he

theorem sendEffect_keepsPfes (p : Port) (g tag flags len dl : Byte) (s : State) :
    EffectKeepsPfes s (sendEffect p g tag flags len dl s) := by
  unfold sendEffect
  split
  · exact .error s _
  · split
    · exact .error s _
    · exact .ok _ (commit_pfe p g tag flags len dl _ s)

theorem fetchEffect_keepsPfes (p : Port) (s : State) : EffectKeepsPfes s (fetchEffect p s) := by
  unfold fetchEffect
  split
  · exact .ok _ fun _ => rfl
  · split
    · exact .error s _
    · refine .ok _ ?_
      split
      · exact (fetchConfirmed_coreOnly p _ s).pfe
      · exact (fetchUnconfirmed_coreOnly p _ s).pfe

theorem readEffect_keepsPfes (p : Port) (index generation offset count : Byte) (s : State) :
    EffectKeepsPfes s (readEffect p index generation offset count s) := by
  unfold readEffect
  split
  · exact .error s _
  · exact .ok _ fun _ => rfl

theorem answerEffect_keepsPfes (p : Port) (index generation : Byte) {effect : Handle → State → State} {s : State}
    (h : ∀ k, CoreOnly s (effect k s)) : EffectKeepsPfes s (answerEffect p index generation effect s) := by
  unfold answerEffect
  split
  · exact .ok _ fun _ => rfl
  · exact .ok _ (h _).pfe

theorem takeEffect_keepsPfes (p : Port) (s : State) : EffectKeepsPfes s (takeEffect p s) := by
  unfold takeEffect
  split
  · exact .ok _ fun _ => rfl
  · exact .ok _ fun _ => rfl

theorem presenceEffect_pfe (p : Port) (lostSeen present : Bool) (s : State) (q : Port) :
    (presenceEffect p lostSeen present s).pfe q = s.pfe q := by
  unfold presenceEffect
  split
  · split
    · exact retire_pfe s p q _
    · rfl
  · split <;> rfl

theorem refresh_frontEndsLaw {s : State} (hs : FrontEndsLaw s) : FrontEndsLaw s.refresh := by
  intro q
  rw [refresh_pfe]
  exact driveAtn_frontLaw _ (hs q)

/-- A taking keeps the law where the answered PFE keeps it and the others are untouched (R151). -/
theorem afterTaking_frontEndsLaw {s t : State} {p : Port} {reply : List Byte} (hs : FrontEndsLaw s)
    (hp : FrontLaw ((t.pfe p).writeReply reply)) (hother : ∀ q, p ≠ q → t.pfe q = s.pfe q) :
    FrontEndsLaw (afterTaking p t reply) := by
  refine refresh_frontEndsLaw fun q => ?_
  rw [State.granted, setArbiter_pfe, modPfe_pfe]
  split
  · exact hp
  · rename_i h
    rw [hother q h]
    exact hs q

theorem takeCommand_frontEndsLaw {p : Port} {req : Request} {effect : State → CoreResult} {s : State}
    (hs : FrontEndsLaw s) (heffect : EffectKeepsPfes s (effect s)) :
    OnNext (takeCommand p req effect s) FrontEndsLaw := by
  intro u hu
  obtain ⟨_, rfl⟩ | ⟨_, t, reply, he, rfl⟩ := takeCommand_cases hu
  · exact hs
  · have hsame := heffect t reply he
    exact afterTaking_frontEndsLaw hs (hsame p ▸ writeReply_frontLaw reply (hs p)) fun q _ => hsame q

/-- The taking of a command that is judged and, where it passes, answered OK alone. -/
theorem takeOkAlone_frontEndsLaw {p : Port} {req : Request} {checks : State → List (Bool × ResultCode)}
    {effect : State → State} {s : State} (hs : FrontEndsLaw s) (h : ∀ q, (effect s).pfe q = s.pfe q) :
    OnNext (takeCommand p req (fun s => judged s (checks s) (okAlone (effect s))) s) FrontEndsLaw :=
  takeCommand_frontEndsLaw hs (.judged (checks s) (.ok _ h))

/-- What the taking of a SEND does before the reply: the judged effect, then the release of the staging buffer
(R148). -/
theorem execSend_effect {p : Port} {g tag flags len dl : Byte} {s t : State} {reply : List Byte}
    (h : (judged s (sendChecks p g tag flags len dl s) (sendEffect p g tag flags len dl s)).map
      (fun out => (releaseStaging p out.1, out.2)) = .ok (t, reply)) :
    ∃ u, judged s (sendChecks p g tag flags len dl s) (sendEffect p g tag flags len dl s) = .ok (u, reply) ∧
      t = releaseStaging p u := by
  cases hout : judged s (sendChecks p g tag flags len dl s) (sendEffect p g tag flags len dl s) with
  | error f => rw [hout] at h; cases h
  | ok out => rw [hout] at h; cases h; exact ⟨_, rfl, rfl⟩

theorem execSend_frontEndsLaw (p : Port) (g tag flags len dl : Byte) {s : State} (hs : FrontEndsLaw s) :
    OnNext (execSend p g tag flags len dl s) FrontEndsLaw := by
  intro u hu
  obtain ⟨_, rfl⟩ | ⟨htakes, t, reply, he, rfl⟩ := takeCommand_cases hu
  · exact hs
  · obtain ⟨u, hjudged, rfl⟩ := execSend_effect he
    have hsame := EffectKeepsPfes.judged _ (sendEffect_keepsPfes p g tag flags len dl s) u reply hjudged
    have hmark : (s.pfe p).stagingMarked = false := by
      obtain ⟨_, hslot⟩ := takes_iff.1 htakes
      exact (slotPayloadWhole_iff.1 (steady_of_frontLaw (hs p)).payload _ _ _ _ _ hslot).2.1
    have hreleased : (releaseStaging p u).pfe p = (s.pfe p).stagingReleased := by
      rw [releaseStaging, modPfe_pfe_same, hsame]
      rfl
    refine afterTaking_frontEndsLaw hs ?_ fun q hq => ?_
    · rw [hreleased, stagingReleased_writeReply]
      exact stagingReleased_frontLaw (writeReply_frontLaw reply (hs p)) (writeReply_slot reply _)
        ((writeReply_stagingMarked reply _).trans hmark)
    · rw [releaseStaging, modPfe_pfe_ne _ _ _ _ hq, hsame]

/-! ## The tick taking, its expiries, and the presence reports -/

theorem endTick_frontEndsLaw {s : State} (hs : FrontEndsLaw s) : FrontEndsLaw s.endTick := by
  unfold State.endTick
  split
  · exact hs
  · exact refresh_frontEndsLaw hs

theorem endTick_underway (s : State) : s.endTick.underway = s.underway := by
  unfold State.endTick
  split
  · rfl
  · exact refresh_underway s

theorem endTick_slot (s : State) (p : Port) : (s.endTick.pfe p).slot = (s.pfe p).slot := by
  unfold State.endTick
  split
  · rfl
  · rw [refresh_pfe]
    rfl

theorem execTickTaking_frontEndsLaw {s : State} (hs : FrontEndsLaw s) : OnNext (execTickTaking s) FrontEndsLaw := by
  unfold execTickTaking
  split
  · refine onNext_next (endTick_frontEndsLaw fun q => ?_)
    simpa [State.granted, State.lowerRemaining] using hs q
  · exact onNext_next hs

theorem execTickTaking_underwayLaw {s : State} (hs : UnderwayLaw s) : OnNext (execTickTaking s) UnderwayLaw := by
  unfold execTickTaking
  split
  · exact onNext_next (underwayLaw_of_none (endTick_underway _))
  · exact onNext_next hs

theorem execRecordExpiry_frontEndsLaw (r : RecordIndex) {s : State} (hs : FrontEndsLaw s) :
    OnNext (execRecordExpiry r s) FrontEndsLaw := by
  unfold execRecordExpiry
  split
  · refine onNext_next (endTick_frontEndsLaw fun q => ?_)
    rw [(expire_coreOnly s r).pfe]
    exact hs q
  · exact onNext_next hs

theorem execRecordExpiry_underwayLaw (r : RecordIndex) {s : State} (hs : UnderwayLaw s) :
    OnNext (execRecordExpiry r s) UnderwayLaw := by
  unfold execRecordExpiry
  split
  · refine onNext_next fun p hp => ?_
    rw [endTick_underway, (expire_coreOnly s r).underway] at hp
    rw [endTick_slot, (expire_coreOnly s r).pfe]
    exact hs p hp
  · exact onNext_next hs

theorem execPresenceReport_frontEndsLaw (p : Port) {s : State} (hs : FrontEndsLaw s) :
    OnNext (execPresenceReport p s) FrontEndsLaw := by
  unfold execPresenceReport
  split
  · refine onNext_next (refresh_frontEndsLaw fun q => ?_)
    rw [State.granted, setArbiter_pfe, presenceEffect_pfe, modPfe_pfe]
    split
    · exact takePresence_frontLaw (hs p)
    · exact hs q
  · exact onNext_next hs

theorem execPresenceReport_underwayLaw (p : Port) {s : State} (hs : UnderwayLaw s) :
    OnNext (execPresenceReport p s) UnderwayLaw := by
  unfold execPresenceReport
  split
  · exact onNext_next (underwayLaw_of_none (by simp [State.granted]))
  · exact onNext_next hs

/-! ## The steps -/

theorem execTick_frontEndsLaw (prs : PortSet) {s : State} (hs : FrontEndsLaw s) :
    OnNext (execTick prs s) FrontEndsLaw := by
  refine onNext_next fun q => ?_
  rw [mapPfes_pfe]
  exact driveAtn_frontLaw _ (tick_frontLaw _ (hs q))

theorem execTick_underwayLaw (prs : PortSet) {s : State} (hs : UnderwayLaw s) :
    OnNext (execTick prs s) UnderwayLaw := by
  refine onNext_next fun q hq => ?_
  rw [mapPfes_underway] at hq
  rw [mapPfes_pfe]
  exact KeepsRequest.of_eq (tick_slot _ _) (hs q hq)

theorem execHubReset_frontEndsLaw (s : State) : OnNext (execHubReset s) FrontEndsLaw := by
  refine onNext_next fun q => ?_
  have hreset : ((State.reset.setPool s.pool).setPending s.pending).pfe q = Pfe.reset := by
    rw [setPending_pfe, setPool_pfe]
    simp [State.reset, State.pfe]
  rw [mapPfes_pfe, hreset]
  exact frontLaw_iff.2 ⟨⟨Nat.zero_le 4, rfl, rfl⟩, ⟨rfl, rfl⟩, rfl, rfl, rfl⟩

theorem execRecall_frontEndsLaw (p : Port) (granted : Bool) {s : State} (hs : FrontEndsLaw s) :
    OnNext (execRecall p granted s) FrontEndsLaw :=
  onNext_next (noteUnderway_frontEndsLaw p granted s (byteEventIf_frontEndsLaw p _ _ hs))

theorem execRecall_underwayLaw (p : Port) (granted : Bool) {s : State} (hs : UnderwayLaw s) :
    OnNext (execRecall p granted s) UnderwayLaw :=
  onNext_next (noteUnderway_underwayLaw p granted hs (byteEventIf_underwayLaw p _ _ hs)
    (byteEventIf_keepsRequest p _ _ s p))

theorem exec_frontEndsLaw (i : Instr) {s : State} (hs : FrontEndsLaw s) : OnNext (exec i s) FrontEndsLaw := by
  cases i with dsimp only [exec]
  | hubReset => exact execHubReset_frontEndsLaw s
  | tick prs => exact execTick_frontEndsLaw prs hs
  | idleSelect p => exact onNext_next (pfeEvent_frontEndsLaw p (fun _ _ => idleFault_frontLaw) hs)
  | select p high => exact onNext_next (pfeEvent_frontEndsLaw p (fun m _ => select_frontLaw m high) hs)
  | deselect p =>
    exact onNext_next (pfeEvent_frontEndsLaw p (fun _ _ hf => deselect_frontLaw (idleFault_frontLaw hf)) hs)
  | byteCompletion p b => exact onNext_next (pfeEvent_frontEndsLaw p (fun m _ => byte_frontLaw m b) hs)
  | unknownCommand p _ | commandPost p _ | nop p | status p | clearFault p | setMask p _ =>
    exact onNext_next (byteEventIf_frontEndsLaw p _ _ hs)
  | attach p => exact takeOkAlone_frontEndsLaw hs fun _ => rfl
  | detach p => exact takeOkAlone_frontEndsLaw hs fun q => retire_pfe s p q .detached
  | clearNotices p choice => exact takeOkAlone_frontEndsLaw hs (clearNoticesEffect_coreOnly p choice s).pfe
  | openGroup | resize | join => exact takeOkAlone_frontEndsLaw hs fun _ => rfl
  | close p g => exact takeOkAlone_frontEndsLaw hs (enterClosing_coreOnly s _ p _).pfe
  | leave p g => exact takeOkAlone_frontEndsLaw hs (leave_coreOnly p _ s).pfe
  | enrol p g port => exact takeOkAlone_frontEndsLaw hs (notifyPort_coreOnly _ p _).pfe
  | expel p g port => exact takeOkAlone_frontEndsLaw hs (expel_coreOnly p _ _ s).pfe
  | groupInfo | roster | poolInfo => exact takeCommand_frontEndsLaw hs (.judged _ (.ok _ fun _ => rfl))
  | send p g tag flags len dl => exact execSend_frontEndsLaw p g tag flags len dl hs
  | fetch p => exact takeCommand_frontEndsLaw hs (.judged _ (fetchEffect_keepsPfes p s))
  | read p index generation offset count =>
    exact takeCommand_frontEndsLaw hs (.judged _ (readEffect_keepsPfes p index generation offset count s))
  | ack p index generation code =>
    exact takeCommand_frontEndsLaw hs
      (.judged _ (answerEffect_keepsPfes p index generation fun h => ackEffect_coreOnly p code h s))
  | nack p index generation code =>
    exact takeCommand_frontEndsLaw hs
      (.judged _ (answerEffect_keepsPfes p index generation fun h => nackEffect_coreOnly p code h s))
  | take p => exact takeCommand_frontEndsLaw hs (.judged _ (takeEffect_keepsPfes p s))
  | tickTaking => exact execTickTaking_frontEndsLaw hs
  | recordExpiry r => exact execRecordExpiry_frontEndsLaw r hs
  | presenceReport p => exact execPresenceReport_frontEndsLaw p hs
  | _ => exact execRecall_frontEndsLaw _ _ hs -- RECALL, whose constructor has the name of a Mathlib command

theorem exec_underwayLaw (i : Instr) {s : State} (hs : UnderwayLaw s) : OnNext (exec i s) UnderwayLaw := by
  cases i with dsimp only [exec]
  | hubReset => exact onNext_next (underwayLaw_of_none (mapPfes_underway _ _))
  | tick prs => exact execTick_underwayLaw prs hs
  | idleSelect p => exact onNext_next (pfeEvent_underwayLaw p (fun _ f => .of_eq (idleFault_slot f)) hs)
  | select p high => exact onNext_next (pfeEvent_underwayLaw p (fun m f => .of_eq (select_slot m high f)) hs)
  | deselect p =>
    exact onNext_next (pfeEvent_underwayLaw p (fun _ f => .of_eq ((deselect_slot _).trans (idleFault_slot f))) hs)
  | byteCompletion p b => exact onNext_next (pfeEvent_underwayLaw p (fun m f => byte_keepsRequest m b f) hs)
  | unknownCommand p _ | commandPost p _ | nop p | status p | clearFault p | setMask p _ =>
    exact onNext_next (byteEventIf_underwayLaw p _ _ hs)
  | attach | detach | clearNotices | openGroup | close | join | leave | enrol | expel | resize | groupInfo | roster
  | poolInfo | send | fetch | read | ack | nack | take => exact takeCommand_underwayLaw hs
  | tickTaking => exact execTickTaking_underwayLaw hs
  | recordExpiry r => exact execRecordExpiry_underwayLaw r hs
  | presenceReport p => exact execPresenceReport_underwayLaw p hs
  | _ => exact execRecall_underwayLaw _ _ hs -- RECALL, whose constructor has the name of a Mathlib command

/-- Settles O59: each event keeps a PFE lawful in the transaction state it reaches, a taking answers one PFE and ends
the taking in progress, and only a taking empties a command slot. -/
theorem everyStepKeepsFrontEndsLaw : Obligations.EveryStepKeepsFrontEndsLaw := by
  refine ⟨fun s hs => ?_, fun s hs => ?_⟩
  · unfold step
    cases s.pending with
    | nil => exact onNext_next hs
    | cons c rest => exact exec_frontEndsLaw c (s := s.setPending rest) hs
  · unfold step
    cases s.pending with
    | nil => exact onNext_next hs
    | cons c rest => exact exec_underwayLaw c (s := s.setPending rest) hs

end Sys2Proof.Machine.FrontEnds

namespace Sys2Proof.Machine.Sending

open Laws MessagePool FrontEnds

/-! ## What the taking of a request shows outside the core's tables (R150, R151, R159, R161) -/

/-- The taking of port p's request, where its effect has touched no other PFE, not the tick slot and not the queue. -/
theorem answeredFrom_afterTaking {s t : State} {p : Port} {before : Pfe} {reply : List Byte} (hp : t.pfe p = before)
    (hother : ∀ q, q ≠ p → t.pfe q = s.pfe q) (htick : t.tickCount = s.tickCount) (hpending : t.pending = s.pending) :
    AnsweredFrom before p reply s (afterTaking p t reply) := by
  have hpublished : Published (afterTaking p t reply) := fun q => by
    simp only [refresh_port, summaryOf_withSummary]
  refine ⟨?_, fun q hq => ?_, hpublished, ?_, ?_, ?_, ?_⟩
  · rw [hpublished p]
    subst hp
    by_cases h : (t.pfe p).txn = .await <;>
      simp [State.granted, Pfe.driveAtn, Pfe.writeReply, h, attention, Pfe.faulted]
  · rw [AttentionOnly, hpublished q, afterTaking_other p q hq.symm, hother q hq]
    simp [State.granted, Pfe.driveAtn]
  · simp [State.granted, htick]
  · simp [State.granted]
  · simp [State.granted]
  · simp [State.granted, hpending]

theorem afterTaking_port (p : Port) (t : State) (reply : List Byte) (q : Port) :
    (afterTaking p t reply).port q = { t.port q with summary := summaryOf (t.port q) } := by
  simp [State.granted]

theorem afterTaking_group (p : Port) (t : State) (reply : List Byte) (g : GroupNo) :
    (afterTaking p t reply).group g = t.group g := by
  simp [State.granted]

theorem afterTaking_record (p : Port) (t : State) (reply : List Byte) (r : RecordIndex) :
    (afterTaking p t reply).record r = t.record r := by
  simp [State.granted]

theorem afterTaking_reservedTotal (p : Port) (t : State) (reply : List Byte) :
    (afterTaking p t reply).reservedTotal = t.reservedTotal := by
  simp [State.granted]

theorem afterTaking_freeList (p : Port) (t : State) (reply : List Byte) :
    (afterTaking p t reply).freeList = t.freeList := by
  simp [State.granted]

theorem afterTaking_pool (p : Port) (t : State) (reply : List Byte) :
    (afterTaking p t reply).pool = t.pool := by
  simp [State.granted]

theorem releaseStaging_port (p : Port) (t : State) (q : Port) : (releaseStaging p t).port q = t.port q := rfl

theorem releaseStaging_group (p : Port) (t : State) (g : GroupNo) :
    (releaseStaging p t).group g = t.group g := rfl

theorem releaseStaging_record (p : Port) (t : State) (r : RecordIndex) :
    (releaseStaging p t).record r = t.record r := rfl

theorem releaseStaging_reservedTotal (p : Port) (t : State) :
    (releaseStaging p t).reservedTotal = t.reservedTotal := rfl

theorem releaseStaging_freeList (p : Port) (t : State) : (releaseStaging p t).freeList = t.freeList := rfl

theorem releaseStaging_pool (p : Port) (t : State) : (releaseStaging p t).pool = t.pool := rfl

/-- A taking whose effect changes no table changes none. -/
theorem sameTables_afterTaking {s t : State} (p : Port) (reply : List Byte) (hport : ∀ q, t.port q = s.port q)
    (hstores : SameStores s t) : SameTables s (afterTaking p t reply) := by
  obtain ⟨hgroup, hrecord, hreserved, hfree, hpool⟩ := hstores
  refine ⟨fun q => ?_, fun g => ?_, fun r => ?_, ?_, ?_, fun a => ?_⟩
  · rw [SamePort, afterTaking_port, hport]
  · rw [afterTaking_group, hgroup]
  · rw [afterTaking_record, hrecord]
  · rw [afterTaking_reservedTotal, hreserved]
  · rw [afterTaking_freeList, hfree]
  · rw [afterTaking_pool, hpool a]

/-! ## Checks in order (R42, R171) -/

/-- Two lists of checks, one with result codes and one with their bytes, of which each check agrees where those before
it pass. -/
def SameChecks : List (Bool × ResultCode) → List (Bool × Byte) → Prop
  | [], [] => True
  | c :: cs, d :: ds => c.1 = d.1 ∧ c.2.byte = d.2 ∧ (c.1 = false → SameChecks cs ds)
  | _, _ => False

theorem SameChecks.cons {fails fails' : Bool} {code : ResultCode} {cs : List (Bool × ResultCode)}
    {ds : List (Bool × Byte)} (h : fails = fails') (hrest : fails = false → SameChecks cs ds) :
    SameChecks ((fails, code) :: cs) ((fails', code.byte) :: ds) := ⟨h, rfl, hrest⟩

/-- The same check fails first in both. -/
theorem SameChecks.firstRefusal_eq {cs : List (Bool × ResultCode)} {ds : List (Bool × Byte)} (h : SameChecks cs ds) :
    firstRefusal ds = (firstFail cs).map ResultCode.byte := by
  induction cs, ds using SameChecks.induct with
  | case1 => rfl
  | case2 c cs d ds ih =>
    obtain ⟨fails, code⟩ := c
    obtain ⟨_, byte⟩ := d
    obtain ⟨rfl, rfl, hrest⟩ := h
    cases fails with
    | true => rfl
    | false => exact ih (hrest rfl)
  | case3 => exact absurd h (by simp [SameChecks])

/-- The sender rule, where the group has one (R9). -/
theorem failsSenderRule_eq {p : Port} {e : Group} (h : e.senderRule ≠ none) :
    failsSenderRule p e = decide ((e.senderRule = some .anyMember ∧ PortSet.has e.members p = false) ∨
      (e.senderRule = some .anchorOnly ∧ e.anchor ≠ some p)) := by
  cases hrule : e.senderRule with
  | none => exact absurd hrule h
  | some rule => cases rule <;> simp [failsSenderRule, hrule, bne, beq_eq_decide]

/-- A tag stands in a send list (R112). -/
theorem any_tag_eq (tag : Byte) (sends : List SendEntry) :
    (sends.any fun e => e.tag == tag) = decide (tag ∈ sends.map SendEntry.tag) := by
  rw [Bool.eq_iff_iff]
  simp

/-- The taking of a SEND: its judged effect, the release of the staging buffer, and the reply (R148, R151). -/
theorem execSend_taken {p : Port} {g tag flags len dl : Byte} {s u : State} {reply : List Byte}
    (h : s.takes p (.send g tag flags len dl) = true)
    (he : judged s (sendChecks p g tag flags len dl s) (sendEffect p g tag flags len dl s) = .ok (u, reply)) :
    execSend p g tag flags len dl s = .next (afterTaking p (releaseStaging p u) reply) :=
  takeCommand_taken h (by rw [he]; rfl)

/-- Settles O25: the checks of R42 are those of the model one by one, the sender rule where the group is OPEN, and a
refused SEND changes its own PFE alone. -/
theorem sendRefusesInOrder : Obligations.SendRefusesInOrder := by
  intro s p g tag flags len dl htakes hrule e code hcode
  obtain ⟨refusal, hfail, rfl⟩ : ∃ k, firstFail (sendChecks p g tag flags len dl s) = some k ∧ k.byte = code := by
    rw [SameChecks.firstRefusal_eq (cs := sendChecks p g tag flags len dl s)] at hcode
    · exact Option.map_eq_some_iff.1 hcode
    refine .cons ?active fun _ => .cons ?params fun _ => .cons rfl fun _ => .cons (beq_eq_decide _ _) fun hfree =>
      .cons (beq_eq_decide _ _) fun hclosing => .cons (failsSenderRule_eq (hrule ?opened)) fun _ => .cons rfl fun _ =>
      .cons (any_tag_eq tag _) fun _ => .cons rfl fun _ => trivial
    case active => simp [State.notActive, bne, beq_eq_decide]
    case params =>
      simp [badFlags, highBitsSet, flagStopOnRefusal, flagConfirm, Config.deadlineLimit, beq_eq_decide]
    case opened =>
      rw [beq_eq_false_iff_ne] at hfree hclosing
      cases hstate : (s.group (groupNo g)).state with
      | free => exact absurd hstate hfree
      | closing => exact absurd hstate hclosing
      | opened => rfl
  refine ⟨_, execSend_taken htakes (judged_refused hfail), answeredFrom_afterTaking ?_ (fun q hq => ?_) rfl rfl,
    sameTables_afterTaking p _ (fun _ => rfl) ⟨fun _ => rfl, fun _ => rfl, rfl, rfl, fun _ => rfl⟩⟩
  · exact modPfe_pfe_same s p _
  · exact modPfe_pfe_ne s p _ q hq.symm

/-! ## The targets of a commit (R51 to R55) -/

/-- A port's tables once the core has reached it as a target: the delivery is inserted, or at a full queue it is not,
and the missed latch of an unconfirmed message's target is set (R53, R54). -/
def offered (d : Delivery) (confirm : Bool) (c : CorePort) : CorePort :=
  if Config.queueLimit ≤ c.queue.length then { c with missed := c.missed || !confirm }
  else { c with queue := insertDelivery d c.queue }

/-- The target entry of a port as the core reaches it: QUEUED, or BLOCKED at a full queue (R53, R54). -/
def targetAt (q : Port) (c : CorePort) : Target :=
  ⟨q, if Config.queueLimit ≤ c.queue.length then .blocked else .queued, 0⟩

theorem addTarget_port (r : RecordIndex) (cls : MsgClass) (confirm : Bool) (s : State) (q k : Port) :
    (State.addTarget r cls confirm s q).port k =
      if q = k then offered ⟨s.handle r, cls⟩ confirm (s.port q) else s.port k := by
  simp [State.addTarget, modPort_port, offered]

theorem addTarget_record (r : RecordIndex) (cls : MsgClass) (confirm : Bool) (s : State) (q : Port)
    (k : RecordIndex) :
    (State.addTarget r cls confirm s q).record k =
      if r = k then
        { s.record r with
          message := (s.message r).map fun m => { m with targets := m.targets ++ [targetAt q (s.port q)] } }
      else s.record k := by
  simp [State.addTarget, State.modMessage, modRecord_record, targetAt, State.message]

theorem addTarget_handle (r : RecordIndex) (cls : MsgClass) (confirm : Bool) (s : State) (q : Port) :
    (State.addTarget r cls confirm s q).handle r = s.handle r := by
  simp [State.handle, addTarget_record]

/-- What the core leaves once it has reached the ports of a list as targets of record `r`, in the list's order. -/
structure Reached (r : RecordIndex) (cls : MsgClass) (confirm : Bool) (qs : List Port) (s t : State) : Prop where
  port : ∀ k, t.port k = if k ∈ qs then offered ⟨s.handle r, cls⟩ confirm (s.port k) else s.port k
  record : ∀ k, t.record k =
    if r = k then
      { s.record r with
        message := (s.message r).map fun m =>
          { m with targets := m.targets ++ qs.map fun q => targetAt q (s.port q) } }
    else s.record k
  group : ∀ k, t.group k = s.group k
  reservedTotal : t.reservedTotal = s.reservedTotal
  freeList : t.freeList = s.freeList

/-- Each port of the snapshot is reached once, with its tables as they stood before the commit (R51, R53). -/
theorem foldl_addTarget_reached (r : RecordIndex) (cls : MsgClass) (confirm : Bool) {qs : List Port} (hqs : qs.Nodup)
    (s : State) : Reached r cls confirm qs s (qs.foldl (State.addTarget r cls confirm) s) := by
  induction qs generalizing s with
  | nil => exact ⟨fun _ => by simp, fun k => by simp [State.message]; rintro rfl; rfl, fun _ => rfl, rfl, rfl⟩
  | cons q qs ih =>
    obtain ⟨hq, hqs⟩ := List.nodup_cons.1 hqs
    obtain ⟨hport, hrecord, hgroup, hreserved, hfree⟩ := ih hqs (State.addTarget r cls confirm s q)
    refine ⟨fun k => ?_, fun k => ?_, hgroup, hreserved, hfree⟩
    · rw [List.foldl_cons, hport, addTarget_handle, addTarget_port]
      by_cases h : q = k
      · subst h
        simp [hq]
      · simp [h, Ne.symm h]
    · have hothers : ∀ k ∈ qs, targetAt k ((State.addTarget r cls confirm s q).port k) = targetAt k (s.port k) :=
        fun k hk => by rw [addTarget_port, if_neg fun h : q = k => hq (h ▸ hk)]
      rw [List.foldl_cons, hrecord, List.map_congr_left hothers]
      by_cases h : r = k
      · subst h
        simp [State.message, addTarget_record, Function.comp_def]
      · simp [addTarget_record, h]

/-! ## What a commit leaves, up to the close of its record (R47 to R56) -/

/-- The ports of the target snapshot are those of the statements, in ascending order (R51, R52). -/
theorem snapshot_eq (p : Port) (flags : Byte) (e : Group) :
    snapshot p (flagLoopback flags) e =
      allPorts.filter fun q => PortSet.has e.members q && (flags.getLsbD 3 || decide (q ≠ p)) := by
  simp [snapshot, PortSet.ports, List.filter_filter, flagLoopback, bne, beq_eq_decide, Bool.and_comm]

theorem targetsOf_eq (s : State) (p : Port) (g flags : Byte) :
    s.targetsOf p g flags =
      (snapshot p (flagLoopback flags) (s.group (groupNo g))).map fun q => targetAt q (s.port q) := by
  rw [State.targetsOf, snapshot_eq]
  refine List.map_congr_left fun q _ => ?_
  by_cases h : (s.port q).queue.length < 16
  · simp [targetAt, h, Nat.not_le.2 h]
  · simp [targetAt, h, Nat.not_lt.1 h]

theorem targetsOf_ports (s : State) (p : Port) (g flags : Byte) :
    (s.targetsOf p g flags).map Target.port = snapshot p (flagLoopback flags) (s.group (groupNo g)) := by
  rw [targetsOf_eq, List.map_map]
  exact List.map_id _

/-- The message of the statements is the commit's, with the targets it has been given (R41, R48, R50). -/
theorem messageSent_eq (s : State) (p : Port) (g tag flags len dl : Byte) :
    s.messageSent p g tag flags len dl =
      { messageOf p g tag flags len dl (s.freeList.take (blocksFor len.toNat)) s with
        targets := s.targetsOf p g flags } := by
  have hdeadline : deadlineOf dl (s.group (groupNo g)) =
      if dl = 0x00 then (s.group (groupNo g)).defaultDeadline else dl.toNat := by
    simp [deadlineOf, BitVec.toNat_eq]
  rw [messageOf, hdeadline]
  rfl

/-- Port q's tables once the message `m` of record `r` has been offered to its targets. -/
def portAfter (s : State) (r : RecordIndex) (m : Message) (q : Port) : CorePort :=
  if q ∈ m.targets.map Target.port then offered ⟨s.handle r, m.cls⟩ m.confirm (s.port q) else s.port q

/-- The tables once the commit has filled its record, reached its targets and made its send-list entry: all of the ten
steps but the close (03 section 3.4). -/
abbrev committed (p : Port) (g tag flags len dl : Byte) (r : RecordIndex) (s : State) : State :=
  commitTargets p g tag flags r (commitRecord p g tag flags len dl r s)

section Committed

variable (p : Port) (g tag flags len dl : Byte) (r : RecordIndex) (s : State)

theorem commitRecord_record (k : RecordIndex) :
    (commitRecord p g tag flags len dl r s).record k =
      if r = k then
        { s.record r with message := some (messageOf p g tag flags len dl (s.freeList.take (blocksFor len.toNat)) s) }
      else s.record k := by
  simp [commitRecord, modRecord_record]

theorem commitRecord_group (k : GroupNo) :
    (commitRecord p g tag flags len dl r s).group k =
      if groupNo g = k then
        { s.group k with used := (s.group k).used + blocksFor len.toNat, inFlight := (s.group k).inFlight + 1 }
      else s.group k := by
  simp only [commitRecord, modGroup_group]
  split
  · rename_i h
    subst h
    rfl
  · rfl

theorem commitRecord_handle : (commitRecord p g tag flags len dl r s).handle r = s.handle r := by
  simp [State.handle, commitRecord_record]

/-- The ports of the snapshot, reached from the tables the record's steps have left. -/
theorem committed_reached :
    Reached r (classOf flags) (flagConfirm flags) (snapshot p (flagLoopback flags) (s.group (groupNo g)))
      (commitRecord p g tag flags len dl r s)
      ((snapshot p (flagLoopback flags) (s.group (groupNo g))).foldl
        (State.addTarget r (classOf flags) (flagConfirm flags)) (commitRecord p g tag flags len dl r s)) :=
  foldl_addTarget_reached r _ _ (((List.nodup_finRange 6).filter _).filter _) _

theorem committed_eq :
    committed p g tag flags len dl r s =
      ((snapshot p (flagLoopback flags) (s.group (groupNo g))).foldl
        (State.addTarget r (classOf flags) (flagConfirm flags)) (commitRecord p g tag flags len dl r s)).modPort p
          fun c => { c with sends := c.sends ++ [.inTransit tag (s.handle r) (flagConfirm flags)] } := by
  have hmembers : ((commitRecord p g tag flags len dl r s).group (groupNo g)).members =
      (s.group (groupNo g)).members := by rw [commitRecord_group, if_pos rfl]
  rw [committed, commitTargets, commitRecord_handle, snapshot, snapshot, hmembers]

/-- The tables of port q are those of a target or of no target; the sender has the new entry besides (R53 to R55). -/
theorem committed_port (q : Port) :
    (committed p g tag flags len dl r s).port q =
      if p = q then
        { portAfter s r (s.messageSent p g tag flags len dl) q with
          sends := (portAfter s r (s.messageSent p g tag flags len dl) q).sends ++
            [.inTransit tag (s.handle r) (flagConfirm flags)] }
      else portAfter s r (s.messageSent p g tag flags len dl) q := by
  have hreached (k : Port) : ((snapshot p (flagLoopback flags) (s.group (groupNo g))).foldl
      (State.addTarget r (classOf flags) (flagConfirm flags)) (commitRecord p g tag flags len dl r s)).port k =
        portAfter s r (s.messageSent p g tag flags len dl) k := by
    rw [(committed_reached p g tag flags len dl r s).port, commitRecord_handle, ← targetsOf_ports]
    rfl
  rw [committed_eq, modPort_port]
  split
  · rename_i h
    subst h
    rw [hreached]
  · rw [hreached]

theorem committed_record (k : RecordIndex) :
    (committed p g tag flags len dl r s).record k =
      if r = k then { s.record r with message := some (s.messageSent p g tag flags len dl) } else s.record k := by
  rw [committed_eq, modPort_record, (committed_reached p g tag flags len dl r s).record]
  split
  · rw [messageSent_eq, targetsOf_eq, State.message, commitRecord_record, if_pos rfl]
    rfl
  · rename_i h
    rw [commitRecord_record, if_neg h]

theorem committed_group (k : GroupNo) :
    (committed p g tag flags len dl r s).group k =
      if groupNo g = k then
        { s.group k with used := (s.group k).used + blocksFor len.toNat, inFlight := (s.group k).inFlight + 1 }
      else s.group k := by
  rw [committed_eq, modPort_group, (committed_reached p g tag flags len dl r s).group, commitRecord_group]

theorem committed_reservedTotal : (committed p g tag flags len dl r s).reservedTotal = s.reservedTotal := by
  rw [committed_eq, modPort_reservedTotal, (committed_reached p g tag flags len dl r s).reservedTotal]
  rfl

theorem committed_freeList :
    (committed p g tag flags len dl r s).freeList = s.freeList.drop (blocksFor len.toNat) := by
  rw [committed_eq, modPort_freeList, (committed_reached p g tag flags len dl r s).freeList, commitRecord_freeList]

end Committed

/-! ## What every commit delivers (R33, R53, R54, R56, R148) -/

/-- Being reached as a target touches the queue and the missed latch alone (R53, R54). -/
theorem portAfter_frame (s : State) (r : RecordIndex) (m : Message) (q : Port) :
    (portAfter s r m q).portState = (s.port q).portState ∧ (portAfter s r m q).held = (s.port q).held ∧
      (portAfter s r m q).roster = (s.port q).roster ∧ (portAfter s r m q).sends = (s.port q).sends ∧
      (portAfter s r m q).doneOrder = (s.port q).doneOrder := by
  unfold portAfter offered
  split
  · split <;> exact ⟨rfl, rfl, rfl, rfl, rfl⟩
  · exact ⟨rfl, rfl, rfl, rfl, rfl⟩

theorem portAfter_queue (s : State) (r : RecordIndex) (m : Message) (q : Port) :
    (portAfter s r m q).queue =
      if decide (q ∈ m.targets.map Target.port) && !decide (16 ≤ (s.port q).queue.length) then
        if m.cls = .urgent then
          ((s.port q).queue.takeWhile fun d => d.cls == .urgent) ++ ⟨s.handle r, .urgent⟩ ::
            ((s.port q).queue.dropWhile fun d => d.cls == .urgent)
        else (s.port q).queue ++ [⟨s.handle r, .normal⟩]
      else (s.port q).queue := by
  by_cases htarget : q ∈ m.targets.map Target.port
  · by_cases hfull : 16 ≤ (s.port q).queue.length
    · simp only [portAfter, htarget, offered, hfull]
      simp
    · cases hcls : m.cls <;> simp only [portAfter, htarget, offered, hfull, insertDelivery, hcls] <;> simp
  · simp only [portAfter, htarget]
    simp

theorem portAfter_missed (s : State) (r : RecordIndex) (m : Message) (q : Port) :
    (portAfter s r m q).missed = ((s.port q).missed ||
      (decide (q ∈ m.targets.map Target.port) && decide (16 ≤ (s.port q).queue.length) && !m.confirm)) := by
  by_cases htarget : q ∈ m.targets.map Target.port
  · by_cases hfull : 16 ≤ (s.port q).queue.length
    · simp only [portAfter, htarget, offered, hfull]
      simp
    · simp only [portAfter, htarget, offered, hfull]
      simp
  · simp only [portAfter, htarget]
    simp

/-- The tables `v` once the message `m` of record `r`, sent by port `p`, has its payload in the pool and has been
offered to its targets; whether the record has closed since is left open. -/
structure Delivered (p : Port) (r : RecordIndex) (m : Message) (s v : State) : Prop where
  pfe           : ∀ q, v.pfe q = s.pfe q
  tickCount     : v.tickCount = s.tickCount
  pending       : v.pending = s.pending
  pool          : v.pool = copyIn m.chain 0 ((s.pfe p).staging.take m.length) s.pool
  queue         : ∀ q, (v.port q).queue = (portAfter s r m q).queue
  missed        : ∀ q, (v.port q).missed = (portAfter s r m q).missed
  portState     : ∀ q, (v.port q).portState = (s.port q).portState
  held          : ∀ q, (v.port q).held = (s.port q).held
  roster        : ∀ q, (v.port q).roster = (s.port q).roster
  group         : ∀ k, k ≠ m.group → v.group k = s.group k
  reservedTotal : v.reservedTotal = s.reservedTotal
  record        : ∀ k, k ≠ r → v.record k = s.record k

/-- What the taking of the SEND leaves where its commit has delivered the message. -/
theorem Delivered.delivers {s v : State} {p : Port} {g tag flags len dl : Byte} {r : RecordIndex}
    (h : Delivered p r (s.messageSent p g tag flags len dl) s v) (hadmits : s.admits p g tag flags len dl r)
    {reply : List Byte} (hreply : reply = [0x00, BitVec.ofNat 8 r.val, (s.record r).generation,
      BitVec.ofNat 8 (s.messageSent p g tag flags len dl).targets.length]) :
    s.delivers p g tag flags len dl r (afterTaking p (releaseStaging p v) reply) := by
  subst hreply
  obtain ⟨-, -, -, -, -, -, -, -, -, -, -, hblocks, hnodup, hstaging, -, -, -, hwf⟩ := hadmits
  have hpool : v.pool = copyIn (s.freeList.take ((len.toNat + 31) / 32)) 0 (s.pfe p).staging s.pool := by
    rw [h.pool, List.take_of_length_le (by rw [hstaging])]
  have hfits : 0 + (s.pfe p).staging.length ≤ 32 * (s.freeList.take ((len.toNat + 31) / 32)).length := by
    rw [List.length_take, hstaging]
    omega
  refine ⟨answeredFrom_afterTaking ?_ (fun q hq => ?_) h.tickCount h.pending, fun i hi => ?_, fun a ha => ?_,
    fun q => ⟨?_, ?_, ?_, ?_, ?_⟩, fun k hk => ?_, ?_, fun k hk => ?_⟩
  · rw [releaseStaging, modPfe_pfe_same, h.pfe]
    rfl
  · rw [releaseStaging, modPfe_pfe_ne _ _ _ _ hq.symm, h.pfe]
  · have hi : i < (s.pfe p).staging.length := hstaging ▸ hi
    have hbyte := chainByte_copyIn (hnodup.sublist (List.take_sublist _ _)) _ 0 s.pool hwf hfits i hi
    rw [Nat.zero_add] at hbyte
    rw [afterTaking_pool, releaseStaging_pool, hpool, List.getD_eq_getElem _ _ hi]
    exact hbyte
  · rw [afterTaking_pool, releaseStaging_pool, hpool]
    exact read_copyIn_of_ne _ _ 0 a s.pool fun k hk => by rw [Nat.zero_add]; exact ha k (hstaging ▸ hk)
  · rw [afterTaking_port, releaseStaging_port, h.queue]
    exact portAfter_queue s r _ q
  · rw [afterTaking_port, releaseStaging_port, h.missed]
    exact portAfter_missed s r _ q
  · rw [afterTaking_port, releaseStaging_port, h.portState]
  · rw [afterTaking_port, releaseStaging_port, h.held]
  · rw [afterTaking_port, releaseStaging_port, h.roster]
  · rw [afterTaking_group, releaseStaging_group, h.group k hk]
  · rw [afterTaking_reservedTotal, releaseStaging_reservedTotal, h.reservedTotal]
  · rw [afterTaking_record, releaseStaging_record, h.record k hk]

/-! ## The close of a record whose group is not CLOSING (R103) -/

theorem closeIfSettled_open {s : State} {r : RecordIndex} {m : Message} (h : s.message r = some m)
    (hopen : m.hasOpenTarget = true) (retiring : Option Port) : s.closeIfSettled retiring r = s := by
  simp [State.closeIfSettled, h, hopen]

theorem closeIfSettled_settled {s : State} {r : RecordIndex} {m : Message} (h : s.message r = some m)
    (hopen : m.hasOpenTarget = false) (retiring : Option Port) :
    s.closeIfSettled retiring r = s.closeRecord retiring r := by
  simp [State.closeIfSettled, h, hopen]

/-- Where the group is not CLOSING, the close gives back the charge and frees no group. -/
theorem releaseCharge_of_not_closing {s : State} {m : Message} (h : (s.group m.group).state ≠ .closing) :
    s.releaseCharge m =
      s.modGroup m.group fun e => { e with used := e.used - m.chain.length, inFlight := e.inFlight - 1 } := by
  rw [State.releaseCharge, State.freeIfDone, if_neg]
  simp [h]

/-- The sender's send-list entry at the close (R103). -/
theorem closeEntry_port (s : State) (r : RecordIndex) (m : Message) (q : Port) :
    (s.closeEntry none r m).port q =
      if m.sender = q then
        if m.confirm then (s.port q).complete (s.handle r) (completionOf m) else (s.port q).dropEntry (s.handle r)
      else s.port q := by
  unfold State.closeEntry
  simp only [reduceCtorEq, if_false]
  split <;> rw [modPort_port] <;> split
  · rename_i h; subst h; rfl
  · rfl
  · rename_i h; subst h; rfl
  · rfl

theorem closeEntry_group (s : State) (retiring : Option Port) (r : RecordIndex) (m : Message) (g : GroupNo) :
    (s.closeEntry retiring r m).group g = s.group g := by
  unfold State.closeEntry
  split
  · rfl
  · split <;> rfl

theorem closeEntry_reservedTotal (s : State) (retiring : Option Port) (r : RecordIndex) (m : Message) :
    (s.closeEntry retiring r m).reservedTotal = s.reservedTotal := by
  unfold State.closeEntry
  split
  · rfl
  · split <;> rfl

section CloseRecord

variable {s : State} {r : RecordIndex} {m : Message} (hm : s.message r = some m)
  (hstate : (s.group m.group).state ≠ .closing) (retiring : Option Port)

include hm hstate

theorem closeRecord_eq :
    s.closeRecord retiring r =
      (((s.closeEntry retiring r m).freeChain m.chain).modGroup m.group fun e =>
        { e with used := e.used - m.chain.length, inFlight := e.inFlight - 1 }).modRecord r TransitRecord.retire := by
  rw [closeRecord_some hm, releaseCharge_of_not_closing]
  rwa [State.freeChain, setFreeList_group, closeEntry_group]

theorem closeRecord_port (q : Port) :
    (s.closeRecord retiring r).port q = (s.closeEntry retiring r m).port q := by
  rw [closeRecord_eq hm hstate]
  rfl

theorem closeRecord_group (g : GroupNo) :
    (s.closeRecord retiring r).group g =
      if m.group = g then
        { s.group g with used := (s.group g).used - m.chain.length, inFlight := (s.group g).inFlight - 1 }
      else s.group g := by
  rw [closeRecord_eq hm hstate, modRecord_group, modGroup_group]
  simp only [State.freeChain, setFreeList_group, closeEntry_group]
  split
  · rename_i h
    rw [h]
  · rfl

theorem closeRecord_reservedTotal : (s.closeRecord retiring r).reservedTotal = s.reservedTotal := by
  rw [closeRecord_eq hm hstate, modRecord_reservedTotal, modGroup_reservedTotal]
  exact closeEntry_reservedTotal s retiring r m

end CloseRecord

/-! ## SEND that passes every check -/

/-- The FREE record of lowest index is the one that is found (R47). -/
theorem freeRecord_eq {s : State} {r : RecordIndex} (hr : s.message r = none)
    (hlowest : ∀ k : RecordIndex, k < r → s.message k ≠ none) : s.freeRecord = some r := by
  refine List.find?_eq_some_iff_getElem.2 ⟨by simp [hr], r.val, by simp, by simp, fun j hj => ?_⟩
  have hused := hlowest ⟨j, hj.trans r.isLt⟩ hj
  rw [List.getElem_finRange, Fin.cast_mk]
  simpa only [Bool.not_eq_true', Option.isNone_eq_false_iff, Option.isSome_iff_ne_none] using hused

/-- No check of R42 fails. -/
theorem sendChecks_pass {s : State} {p : Port} {g tag flags len dl : Byte} {r : RecordIndex}
    (h : s.admits p g tag flags len dl r) : firstFail (sendChecks p g tag flags len dl s) = none := by
  obtain ⟨-, hactive, ⟨hflags, hstop⟩, hlen, hdl, hg, hopened, hsender, hwindow, htag, hquota, -⟩ := h
  have hparams : (badFlags flags || len.toNat == 0 || decide (Config.deadlineLimit < dl.toNat)) = false := by
    have hbits : badFlags flags = false := by
      simpa [badFlags, highBitsSet, flagStopOnRefusal, flagConfirm, hflags] using hstop
    rw [hbits, Bool.false_or, Bool.or_eq_false_iff]
    exact ⟨beq_eq_false_iff_ne.2 (Nat.one_le_iff_ne_zero.1 hlen), decide_eq_false (Nat.not_lt.2 hdl)⟩
  have hrule : failsSenderRule p (s.group (groupNo g)) = false := by
    obtain ⟨hrule, hmember⟩ | ⟨hrule, hanchor⟩ := hsender
    · simp only [failsSenderRule, hrule, hmember, Bool.not_true]
    · simp only [failsSenderRule, hrule, hanchor, bne_self_eq_false]
  refine firstFail_none.2 ?_
  simp only [sendChecks, List.forall_mem_cons, any_tag_eq, decide_eq_false_iff_not, hopened]
  exact ⟨by simp [State.notActive, hactive], hparams, by simpa [badGroup] using hg, rfl, rfl, hrule,
    Nat.not_le.2 hwindow, htag, Nat.not_lt.2 hquota, by simp⟩

theorem committed_message (p : Port) (g tag flags len dl : Byte) (r : RecordIndex) (s : State) :
    (committed p g tag flags len dl r s).message r = some (s.messageSent p g tag flags len dl) := by
  rw [State.message, committed_record, if_pos rfl]

/-- The reply of a SEND: OK, the handle and the number of targets (R56). -/
theorem sendReply_eq (p : Port) (g tag flags len dl : Byte) (r : RecordIndex) (s : State) :
    sendReply r (committed p g tag flags len dl r s) = [0x00, BitVec.ofNat 8 r.val, (s.record r).generation,
      BitVec.ofNat 8 (s.messageSent p g tag flags len dl).targets.length] := by
  rw [sendReply, State.targetCount, committed_message, committed_record, if_pos rfl]
  rfl

/-- A SEND that passes every check commits, and its reply is built before the close (R56, R57). -/
theorem execSend_admitted {s : State} {p : Port} {g tag flags len dl : Byte} {r : RecordIndex}
    (h : s.admits p g tag flags len dl r) :
    execSend p g tag flags len dl s =
      .next (afterTaking p (releaseStaging p ((committed p g tag flags len dl r s).closeIfSettled none r))
        [0x00, BitVec.ofNat 8 r.val, (s.record r).generation,
          BitVec.ofNat 8 (s.messageSent p g tag flags len dl).targets.length]) := by
  have hpass := sendChecks_pass h
  obtain ⟨htakes, -, -, -, -, -, -, -, -, -, -, hblocks, -, -, hr, hlowest, -⟩ := h
  refine execSend_taken htakes ?_
  rw [judged_passed hpass, sendEffect, freeRecord_eq hr hlowest]
  have hfound : ¬ s.freeList.length < blocksFor len.toNat := Nat.not_lt.2 hblocks
  simp only [if_neg hfound, commit, sendReply_eq]

/-- The record of a commit stays IN_TRANSIT exactly where a target is QUEUED (R57, R91). -/
theorem messageSent_hasOpenTarget (s : State) (p : Port) (g tag flags len dl : Byte) :
    (s.messageSent p g tag flags len dl).hasOpenTarget =
      (s.targetsOf p g flags).any fun x => x.outcome == .queued := by
  rw [Message.hasOpenTarget, List.any_map, List.any_map]
  refine congrArg _ (funext fun q => ?_)
  dsimp only [Function.comp_apply]
  split <;> rfl

/-- The tables before the close deliver the message. -/
theorem committed_delivered (p : Port) (g tag flags len dl : Byte) (r : RecordIndex) (s : State) :
    Delivered p r (s.messageSent p g tag flags len dl) s (committed p g tag flags len dl r s) := by
  have hcore := commitTargets_coreOnly p g tag flags r (commitRecord p g tag flags len dl r s)
  have hport (q : Port) : ∃ sends, (committed p g tag flags len dl r s).port q =
      { portAfter s r (s.messageSent p g tag flags len dl) q with sends := sends } := by
    rw [committed_port]
    split
    · exact ⟨_, rfl⟩
    · exact ⟨_, rfl⟩
  have hframe (q : Port) := portAfter_frame s r (s.messageSent p g tag flags len dl) q
  exact {
    pfe := hcore.pfe
    tickCount := hcore.tickCount
    pending := hcore.pending
    pool := hcore.pool
    queue := fun q => by obtain ⟨_, h⟩ := hport q; rw [h]
    missed := fun q => by obtain ⟨_, h⟩ := hport q; rw [h]
    portState := hcore.portState
    held := fun q => by obtain ⟨_, h⟩ := hport q; obtain ⟨-, hheld, -⟩ := hframe q; rw [h, ← hheld]
    roster := fun q => by obtain ⟨_, h⟩ := hport q; obtain ⟨-, -, hroster, -⟩ := hframe q; rw [h, ← hroster]
    group := fun k hk => by rw [committed_group, if_neg fun h : groupNo g = k => hk h.symm]
    reservedTotal := committed_reservedTotal p g tag flags len dl r s
    record := fun k hk => by rw [committed_record, if_neg hk.symm] }

/-- The close of the record leaves what has been delivered (R57, R103). -/
theorem Delivered.closeRecord {s v : State} {p : Port} {r : RecordIndex} {m : Message} (h : Delivered p r m s v)
    (hm : v.message r = some m) (hstate : (v.group m.group).state ≠ .closing) :
    Delivered p r m s (v.closeRecord none r) := by
  have hcore := closeRecord_coreOnly v none r
  have hport (q : Port) : ∃ sends doneOrder,
      (v.closeRecord none r).port q = { v.port q with sends := sends, doneOrder := doneOrder } := by
    rw [closeRecord_port hm hstate, closeEntry_port]
    split
    · split
      · exact ⟨_, _, rfl⟩
      · exact ⟨_, _, rfl⟩
    · exact ⟨_, _, rfl⟩
  exact {
    pfe := fun q => (hcore.pfe q).trans (h.pfe q)
    tickCount := hcore.tickCount.trans h.tickCount
    pending := hcore.pending.trans h.pending
    pool := hcore.pool.trans h.pool
    queue := fun q => by obtain ⟨_, _, hq⟩ := hport q; rw [hq]; exact h.queue q
    missed := fun q => by obtain ⟨_, _, hq⟩ := hport q; rw [hq]; exact h.missed q
    portState := fun q => (hcore.portState q).trans (h.portState q)
    held := fun q => by obtain ⟨_, _, hq⟩ := hport q; rw [hq]; exact h.held q
    roster := fun q => by obtain ⟨_, _, hq⟩ := hport q; rw [hq]; exact h.roster q
    group := fun k hk => by rw [closeRecord_group hm hstate, if_neg hk.symm, h.group k hk]
    reservedTotal := (closeRecord_reservedTotal hm hstate none).trans h.reservedTotal
    record := fun k hk => by rw [closeRecord_record hm, if_neg hk.symm, h.record k hk] }

/-- The sender's list has the new IN_TRANSIT entry, the others stay (R55). -/
theorem committed_sends (p : Port) (g tag flags len dl : Byte) (r : RecordIndex) (s : State) (q : Port) :
    ((committed p g tag flags len dl r s).port q).sends =
      if q = p then (s.port q).sends ++ [.inTransit tag (s.handle r) (flagConfirm flags)] else (s.port q).sends := by
  obtain ⟨-, -, -, hsends, -⟩ := portAfter_frame s r (s.messageSent p g tag flags len dl) q
  rw [committed_port]
  by_cases h : p = q
  · rw [if_pos h, if_pos h.symm, hsends]
  · rw [if_neg h, if_neg (Ne.symm h), hsends]

theorem committed_doneOrder (p : Port) (g tag flags len dl : Byte) (r : RecordIndex) (s : State) (q : Port) :
    ((committed p g tag flags len dl r s).port q).doneOrder = (s.port q).doneOrder := by
  obtain ⟨-, -, -, -, hdone⟩ := portAfter_frame s r (s.messageSent p g tag flags len dl) q
  rw [committed_port, ← hdone]
  split <;> rfl

/-- Settles O38: the commit's tables deliver the message, and its record stays, since a target is QUEUED. -/
theorem sendCommitsMessage : Obligations.SendCommitsMessage := by
  intro s p g tag flags len dl r hadmits hqueued
  have hopen := (messageSent_hasOpenTarget s p g tag flags len dl).trans hqueued
  have hstays := closeIfSettled_open (committed_message p g tag flags len dl r s) hopen none
  have hexec := execSend_admitted hadmits
  rw [hstays] at hexec
  refine ⟨_, hexec, (committed_delivered p g tag flags len dl r s).delivers hadmits rfl, ?_, ?_, ?_, fun q => ?_,
    fun q => ?_⟩
  · rw [afterTaking_record, releaseStaging_record, committed_record, if_pos rfl]
  · rw [afterTaking_freeList, releaseStaging_freeList, committed_freeList, blocksFor]
  · rw [afterTaking_group, releaseStaging_group, committed_group, if_pos rfl, blocksFor]
  · rw [afterTaking_port, releaseStaging_port, committed_sends]
    rfl
  · rw [afterTaking_port, releaseStaging_port, committed_doneOrder]

/-! ## The close in the same taking (R57, R104) -/

section LastEntry

variable {sends : List SendEntry} {h : Handle} (hother : ∀ e ∈ sends, e.carries h = false) (tag : Byte)
  (confirm : Bool)

include hother

/-- Of a send list that ends with the one entry of a handle, that entry alone becomes DONE (R113). -/
theorem map_done_last (k : Completion) :
    ((sends ++ [SendEntry.inTransit tag h confirm]).map fun e => if e.carries h then SendEntry.done e.tag k else e) =
      sends ++ [.done tag k] := by
  have hsame : (sends.map fun e => if e.carries h then SendEntry.done e.tag k else e) = sends :=
    (List.map_congr_left fun e he => by rw [hother e he]; rfl).trans (List.map_id sends)
  rw [List.map_append, hsame]
  simp [SendEntry.carries, SendEntry.tag]

theorem filter_carries_last :
    (sends ++ [SendEntry.inTransit tag h confirm]).filter (fun e => e.carries h) = [.inTransit tag h confirm] := by
  rw [List.filter_append, List.filter_eq_nil_iff.2 fun e he => by simp [hother e he]]
  simp [SendEntry.carries]

theorem filter_not_carries_last :
    (sends ++ [SendEntry.inTransit tag h confirm]).filter (fun e => !e.carries h) = sends := by
  rw [List.filter_append, List.filter_eq_self.2 fun e he => by simp [hother e he]]
  simp [SendEntry.carries]

end LastEntry

/-- At its commit no target of a message is ACKED yet, so a completion is NO_TARGETS or PARTIAL (R57, R104). -/
theorem completionOf_messageSent (s : State) (p : Port) (g tag flags len dl : Byte) :
    completionOf (s.messageSent p g tag flags len dl) =
      ⟨tag, groupNo g, if s.targetsOf p g flags = [] then .noTargets else .partly, s.targetsOf p g flags⟩ := by
  have hnotAcked (x : Target) (hx : x ∈ s.targetsOf p g flags) : (x.outcome == .acked) = false := by
    obtain ⟨q, -, rfl⟩ := List.mem_map.1 hx
    dsimp only
    split <;> rfl
  have hverdict : verdictOf (s.messageSent p g tag flags len dl) =
      if s.targetsOf p g flags = [] then .noTargets else .partly := by
    by_cases hnone : s.targetsOf p g flags = []
    · rw [verdictOf, if_pos hnone, if_pos hnone]
    · obtain ⟨x, hx⟩ := List.exists_mem_of_ne_nil _ hnone
      have hall : ¬ (s.targetsOf p g flags).all (fun t => t.outcome == .acked) = true := fun hall =>
        absurd (List.all_eq_true.1 hall x hx) (by rw [hnotAcked x hx]; exact Bool.false_ne_true)
      rw [verdictOf, if_neg hnone, if_neg Bool.false_ne_true, if_neg hall, if_neg hnone]
  rw [completionOf, hverdict]

theorem committed_handle (p : Port) (g tag flags len dl : Byte) (r : RecordIndex) (s : State) :
    (committed p g tag flags len dl r s).handle r = s.handle r := by
  rw [State.handle, committed_record, if_pos rfl, State.handle]

section Closed

variable {s : State} {p : Port} {g tag flags len dl : Byte} {r : RecordIndex}
  (hstate : ((committed p g tag flags len dl r s).group (groupNo g)).state ≠ .closing)
  (hcarries : ∀ e ∈ (s.port p).sends, e.carries (s.handle r) = false)

include hstate

theorem closed_port (q : Port) :
    ((committed p g tag flags len dl r s).closeRecord none r).port q =
      if p = q then
        if flagConfirm flags = true then
          ((committed p g tag flags len dl r s).port q).complete (s.handle r) ⟨tag, groupNo g,
            if s.targetsOf p g flags = [] then .noTargets else .partly, s.targetsOf p g flags⟩
        else ((committed p g tag flags len dl r s).port q).dropEntry (s.handle r)
      else (committed p g tag flags len dl r s).port q := by
  rw [closeRecord_port (committed_message p g tag flags len dl r s) hstate, closeEntry_port, committed_handle,
    completionOf_messageSent]
  rfl

include hcarries

/-- A confirmed message leaves its completion in its entry's place, an unconfirmed one leaves nothing (R57, R113). -/
theorem closed_sends (q : Port) :
    (((committed p g tag flags len dl r s).closeRecord none r).port q).sends =
      if q = p ∧ flagConfirm flags = true then
        (s.port q).sends ++ [.done tag ⟨tag, groupNo g,
          if s.targetsOf p g flags = [] then .noTargets else .partly, s.targetsOf p g flags⟩]
      else (s.port q).sends := by
  rw [closed_port hstate]
  by_cases h : q = p
  · subst h
    rw [if_pos rfl]
    by_cases hc : flagConfirm flags = true
    · have hboth : q = q ∧ flagConfirm flags = true := ⟨rfl, hc⟩
      rw [if_pos hc, if_pos hboth, CorePort.complete, committed_sends, if_pos rfl]
      exact map_done_last hcarries tag _ _
    · rw [if_neg hc, if_neg fun hq => hc hq.2, CorePort.dropEntry, committed_sends, if_pos rfl]
      exact filter_not_carries_last hcarries tag _
  · rw [if_neg (Ne.symm h), if_neg fun hq => h hq.1, committed_sends, if_neg h]

theorem closed_doneOrder (q : Port) :
    (((committed p g tag flags len dl r s).closeRecord none r).port q).doneOrder =
      if q = p ∧ flagConfirm flags = true then (s.port q).doneOrder ++ [tag] else (s.port q).doneOrder := by
  rw [closed_port hstate]
  by_cases h : q = p
  · subst h
    rw [if_pos rfl]
    by_cases hc : flagConfirm flags = true
    · have hboth : q = q ∧ flagConfirm flags = true := ⟨rfl, hc⟩
      rw [if_pos hc, if_pos hboth, CorePort.complete, committed_doneOrder, committed_sends, if_pos rfl,
        filter_carries_last hcarries]
      rfl
    · rw [if_neg hc, if_neg fun hq => hc hq.2, CorePort.dropEntry, committed_doneOrder]
  · rw [if_neg (Ne.symm h), if_neg fun hq => h hq.1, committed_doneOrder]

end Closed

/-- Settles O39: the commit's tables deliver the message, and its record closes, since no target is QUEUED; the group
is OPEN, so it stays, and the close takes back what the commit charged. -/
theorem sendClosesAtCommit : Obligations.SendClosesAtCommit := by
  intro s p g tag flags len dl r hadmits hblocked
  have hsettled := (messageSent_hasOpenTarget s p g tag flags len dl).trans hblocked
  have hmessage := committed_message p g tag flags len dl r s
  have hexec := execSend_admitted hadmits
  rw [closeIfSettled_settled hmessage hsettled] at hexec
  obtain ⟨-, -, -, -, -, -, hopened, -, -, -, -, hblocks, -, -, -, -, hcarries, -⟩ := id hadmits
  have hstate : ((committed p g tag flags len dl r s).group (groupNo g)).state ≠ .closing := by
    rw [committed_group, if_pos rfl]
    simp [hopened]
  have hchain : (s.freeList.take ((len.toNat + 31) / 32)).length = (len.toNat + 31) / 32 :=
    List.length_take_of_le hblocks
  refine ⟨_, hexec, ((committed_delivered p g tag flags len dl r s).closeRecord hmessage hstate).delivers hadmits rfl,
    ?_, ?_, ?_, fun q => ⟨?_, ?_⟩⟩
  · rw [afterTaking_record, releaseStaging_record, closeRecord_record hmessage, if_pos rfl, committed_record,
      if_pos rfl]
    rfl
  · rw [afterTaking_freeList, releaseStaging_freeList, closeRecord_freeList hmessage, committed_freeList, blocksFor]
  · rw [afterTaking_group, releaseStaging_group, closeRecord_group hmessage hstate, if_pos rfl, committed_group,
      if_pos rfl, blocksFor, hchain, Nat.add_sub_cancel, Nat.add_sub_cancel]
  · rw [afterTaking_port, releaseStaging_port, closed_sends hstate hcarries]
    rfl
  · rw [afterTaking_port, releaseStaging_port, closed_doneOrder hstate hcarries]
    rfl

end Sys2Proof.Machine.Sending

namespace Sys2Proof.Machine.Traffic

open Laws MessagePool FrontEnds Sending

/-! ## Operations that leave the traffic as it is -/

/-- `t` has the transit records, queues and held lists of `s`, and no send list of it is longer. -/
structure SameTraffic (s t : State) : Prop where
  record : ∀ r, t.record r = s.record r
  queue  : ∀ p, (t.port p).queue = (s.port p).queue
  held   : ∀ p, (t.port p).held = (s.port p).held
  sends  : ∀ p, (t.port p).sends.length ≤ (s.port p).sends.length

theorem SameTraffic.refl (s : State) : SameTraffic s s := ⟨fun _ => rfl, fun _ => rfl, fun _ => rfl, fun _ => le_rfl⟩

theorem SameTraffic.trans {s t u : State} (h : SameTraffic s t) (k : SameTraffic t u) : SameTraffic s u :=
  ⟨fun r => (k.record r).trans (h.record r), fun p => (k.queue p).trans (h.queue p),
    fun p => (k.held p).trans (h.held p), fun p => (k.sends p).trans (h.sends p)⟩

/-- A fold of operations that leave the traffic leaves it. -/
theorem SameTraffic.foldl {α : Type} {f : State → α → State} (hf : ∀ s a, SameTraffic s (f s a)) (l : List α)
    (s : State) : SameTraffic s (l.foldl f s) := by
  induction l generalizing s with
  | nil => exact SameTraffic.refl s
  | cons a l ih => exact (hf s a).trans (ih (f s a))

theorem SameTraffic.message {s t : State} (h : SameTraffic s t) (r : RecordIndex) : t.message r = s.message r :=
  congrArg TransitRecord.message (h.record r)

theorem SameTraffic.handle {s t : State} (h : SameTraffic s t) (r : RecordIndex) : t.handle r = s.handle r := by
  rw [State.handle, State.handle, h.record]

/-- An operation outside the records and the ports leaves the traffic. -/
theorem SameTraffic.of_port {s t : State} (hrecord : ∀ r, t.record r = s.record r)
    (hport : ∀ p, t.port p = s.port p) : SameTraffic s t :=
  ⟨hrecord, fun p => by rw [hport], fun p => by rw [hport], fun p => by rw [hport]⟩

/-- An update of one port that leaves its queue and held list and adds no send-list entry. -/
theorem modPort_sameTraffic (s : State) (p : Port) {f : CorePort → CorePort} (hqueue : ∀ c, (f c).queue = c.queue)
    (hheld : ∀ c, (f c).held = c.held) (hsends : ∀ c, (f c).sends.length ≤ c.sends.length) :
    SameTraffic s (s.modPort p f) := by
  refine ⟨fun _ => rfl, fun q => ?_, fun q => ?_, fun q => ?_⟩ <;> by_cases h : p = q
  · subst h; rw [modPort_port_same, hqueue]
  · rw [modPort_port_ne _ _ _ _ h]
  · subst h; rw [modPort_port_same, hheld]
  · rw [modPort_port_ne _ _ _ _ h]
  · subst h; rw [modPort_port_same]; exact hsends _
  · rw [modPort_port_ne _ _ _ _ h]

/-- An update of one port's state, latches or completion order. -/
theorem modPort_sameTraffic_of_eq (s : State) (p : Port) {f : CorePort → CorePort}
    (hf : ∀ c, (f c).queue = c.queue ∧ (f c).held = c.held ∧ (f c).sends = c.sends) :
    SameTraffic s (s.modPort p f) := by
  refine modPort_sameTraffic s p (fun c => ?_) (fun c => ?_) fun c => ?_ <;>
    obtain ⟨hqueue, hheld, hsends⟩ := hf c
  · exact hqueue
  · exact hheld
  · rw [hsends]

theorem modPfe_sameTraffic (s : State) (p : Port) (f : Pfe → Pfe) : SameTraffic s (s.modPfe p f) :=
  .of_port (fun _ => rfl) fun _ => rfl

theorem mapPfes_sameTraffic (s : State) (f : Port → Pfe → Pfe) : SameTraffic s (s.mapPfes f) :=
  .of_port (mapPfes_record s f) (mapPfes_port s f)

theorem modGroup_sameTraffic (s : State) (g : GroupNo) (f : Group → Group) : SameTraffic s (s.modGroup g f) :=
  .of_port (fun _ => rfl) fun _ => rfl

theorem mapGroups_sameTraffic (s : State) (f : GroupNo → Group → Group) : SameTraffic s (s.mapGroups f) :=
  .of_port (mapGroups_record s f) (mapGroups_port s f)

theorem setReserved_sameTraffic (s : State) (n : Nat) : SameTraffic s (s.setReserved n) :=
  .of_port (fun _ => rfl) fun _ => rfl

theorem setFreeList_sameTraffic (s : State) (bs : List Block) : SameTraffic s (s.setFreeList bs) :=
  .of_port (fun _ => rfl) fun _ => rfl

theorem setTickCount_sameTraffic (s : State) (n : Nat) : SameTraffic s (s.setTickCount n) :=
  .of_port (fun _ => rfl) fun _ => rfl

theorem setPending_sameTraffic (s : State) (cs : List Instr) : SameTraffic s (s.setPending cs) :=
  .of_port (fun _ => rfl) fun _ => rfl

theorem setArbiter_sameTraffic (s : State) (k : Fin 13) (u : Option Port) : SameTraffic s (s.setArbiter k u) :=
  .of_port (fun _ => rfl) fun _ => rfl

theorem refresh_sameTraffic (s : State) : SameTraffic s s.refresh :=
  ⟨refresh_record s, fun p => by rw [refresh_port], fun p => by rw [refresh_port], fun p => by rw [refresh_port]⟩

theorem afterTaking_sameTraffic (p : Port) (t : State) (reply : List Byte) : SameTraffic t (afterTaking p t reply) :=
  ((modPfe_sameTraffic t p _).trans (setArbiter_sameTraffic _ _ _)).trans (refresh_sameTraffic _)

theorem setPortState_sameTraffic (s : State) (p : Port) (st : PortState) : SameTraffic s (s.setPortState p st) :=
  modPort_sameTraffic_of_eq s p fun _ => ⟨rfl, rfl, rfl⟩

theorem notifyRoster_sameTraffic (s : State) (m : PortSet) (but : Option Port) :
    SameTraffic s (s.notifyRoster m but) := by
  refine ⟨mapPorts_record s _, fun p => ?_, fun p => ?_, fun p => ?_⟩ <;> rw [notifyRoster_port] <;> split <;> rfl

theorem freeIfDone_sameTraffic (s : State) (g : GroupNo) (closer : Option Port) :
    SameTraffic s (s.freeIfDone g closer) := by
  unfold State.freeIfDone
  split
  · exact ((setReserved_sameTraffic s _).trans (notifyRoster_sameTraffic _ _ _)).trans (modGroup_sameTraffic _ g _)
  · exact SameTraffic.refl s

theorem enterClosing_sameTraffic (s : State) (g : GroupNo) (cause : Port) (closer : Option Port) :
    SameTraffic s (s.enterClosing g cause closer) :=
  ((modGroup_sameTraffic s g _).trans (notifyRoster_sameTraffic _ _ _)).trans (freeIfDone_sameTraffic _ g closer)

theorem loseAnchor_sameTraffic (p : Port) (s : State) (g : GroupNo) : SameTraffic s (State.loseAnchor p s g) := by
  unfold State.loseAnchor
  split
  · dsimp only
    split
    · exact (modGroup_sameTraffic s g _).trans (enterClosing_sameTraffic _ g p none)
    · exact modGroup_sameTraffic s g _
  · exact SameTraffic.refl s

theorem notifyPort_sameTraffic (s : State) (p q : Port) : SameTraffic s (s.notifyPort p q) := by
  unfold State.notifyPort
  split
  · exact SameTraffic.refl s
  · exact modPort_sameTraffic_of_eq s q fun _ => ⟨rfl, rfl, rfl⟩

theorem clearNoticesEffect_sameTraffic (p : Port) (choice : Byte) (s : State) :
    SameTraffic s (clearNoticesEffect p choice s) := by
  unfold clearNoticesEffect
  split
  · exact SameTraffic.refl s
  · exact modPort_sameTraffic_of_eq s p fun _ => ⟨rfl, rfl, rfl⟩

theorem missIfQueued_sameTraffic (s : State) (r : RecordIndex) (q : Port) : SameTraffic s (s.missIfQueued r q) := by
  unfold State.missIfQueued
  split
  · exact modPort_sameTraffic_of_eq s q fun _ => ⟨rfl, rfl, rfl⟩
  · exact SameTraffic.refl s

theorem closeEntry_sameTraffic (s : State) (retiring : Option Port) (r : RecordIndex) (m : Message) :
    SameTraffic s (s.closeEntry retiring r m) := by
  unfold State.closeEntry
  split
  · exact SameTraffic.refl s
  · split
    · exact modPort_sameTraffic s _ (fun _ => rfl) (fun _ => rfl) fun c => by simp [CorePort.complete]
    · exact modPort_sameTraffic s _ (fun _ => rfl) (fun _ => rfl) fun c => List.length_filter_le _ _

theorem releaseCharge_sameTraffic (s : State) (m : Message) : SameTraffic s (s.releaseCharge m) :=
  (modGroup_sameTraffic s m.group _).trans (freeIfDone_sameTraffic _ m.group none)

/-- Of the four steps of a close, the last alone changes the traffic (R103). -/
theorem closeRecord_eq_retire {s : State} {r : RecordIndex} {m : Message} (h : s.message r = some m)
    (retiring : Option Port) : ∃ u, SameTraffic s u ∧ s.closeRecord retiring r = u.modRecord r TransitRecord.retire :=
  ⟨_, ((closeEntry_sameTraffic s retiring r m).trans (setFreeList_sameTraffic _ _)).trans
    (releaseCharge_sameTraffic _ m), closeRecord_some h retiring⟩

theorem takeDone_sameTraffic (s : State) (p : Port) (tag : Byte) :
    SameTraffic s (s.modPort p fun c => c.dropDone tag) :=
  modPort_sameTraffic s p (fun _ => rfl) (fun _ => rfl) fun _ => List.length_filter_le _ _

theorem attachEffect_sameTraffic (s : State) (p : Port) : SameTraffic s (attachEffect p s) := by
  unfold attachEffect State.addMember
  exact (setPortState_sameTraffic s p .active).trans (modGroup_sameTraffic _ 0 _)

theorem retireSends_sameTraffic (s : State) (p : Port) : SameTraffic s (s.retireSends p) :=
  modPort_sameTraffic s p (fun _ => rfl) (fun _ => rfl) fun _ => Nat.zero_le _

theorem endTick_sameTraffic (s : State) : SameTraffic s s.endTick := by
  unfold State.endTick
  split
  · exact SameTraffic.refl s
  · exact refresh_sameTraffic s

theorem pfeEvent_sameTraffic (p : Port) (act : Summary → Pfe → Pfe) (s : State) : SameTraffic s (pfeEvent p act s) :=
  modPfe_sameTraffic s p _

theorem byteEventIf_sameTraffic (p : Port) (case : Pfe → Bool) (b : Byte) (s : State) :
    SameTraffic s (byteEventIf p case b s) := by
  obtain ⟨_, h⟩ | ⟨_, h⟩ := byteEventIf_cases p case b s <;> rw [h]
  · exact pfeEvent_sameTraffic p _ s
  · exact SameTraffic.refl s

theorem noteUnderway_sameTraffic (p : Port) (granted : Bool) (s t : State) :
    SameTraffic t (noteUnderway p granted s t) := by
  unfold noteUnderway
  split
  · exact setArbiter_sameTraffic t _ _
  · exact SameTraffic.refl t

/-! ## Withdrawals -/

/-- `t` is reached from `s` by withdrawals (R76) and operations that leave the traffic. -/
inductive Drains : State → State → Prop
  | traffic {s t : State} (h : SameTraffic s t) : Drains s t
  | withdraw (s : State) (retiring : Option Port) (r : RecordIndex) (p : Port) : Drains s (s.withdraw retiring r p)
  | trans {s t u : State} (h : Drains s t) (k : Drains t u) : Drains s u

theorem Drains.refl (s : State) : Drains s s := .traffic (.refl s)

theorem Drains.foldl {α : Type} {f : State → α → State} (hf : ∀ s a, Drains s (f s a)) (l : List α) (s : State) :
    Drains s (l.foldl f s) := by
  induction l generalizing s with
  | nil => exact Drains.refl s
  | cons a l ih => exact (hf s a).trans (ih (f s a))

/-- What withdrawals and operations that leave the traffic keep holds afterwards. -/
theorem Drains.keeps {P : State → Prop} (htraffic : ∀ s t, SameTraffic s t → P s → P t)
    (hwithdraw : ∀ s retiring r p, P s → P (s.withdraw retiring r p)) {s t : State} (h : Drains s t) : P s → P t := by
  induction h with
  | traffic h => exact htraffic _ _ h
  | withdraw s retiring r p => exact hwithdraw s retiring r p
  | trans _ _ ih ih' => exact ih' ∘ ih

theorem withdrawAll_drains (s : State) (retiring : Option Port) (p : Port) (rs : List RecordIndex) :
    Drains s (s.withdrawAll retiring p rs) :=
  .foldl (fun t r => .withdraw t retiring r p) rs s

theorem withdrawGroup_drains (s : State) (p : Port) (g : GroupNo) : Drains s (s.withdrawGroup p g) :=
  withdrawAll_drains s none p _

theorem endMessage_drains (p : Port) (s : State) (r : RecordIndex) : Drains s (State.endMessage p s r) := by
  unfold State.endMessage
  split
  · exact .foldl (fun t q => .withdraw t (some p) r q) allPorts s
  · exact Drains.refl s

/-- The six steps of a retirement in their order (R133). -/
theorem retire_drains (s : State) (p : Port) (final : PortState) : Drains s (s.retire p final) := by
  have htargets : Drains s (s.retireTargets p) :=
    (withdrawAll_drains s (some p) p _).trans (withdrawAll_drains _ (some p) p _)
  have hgroups (t : State) : SameTraffic t ((t.retireMemberships p).retireAnchorships p) :=
    (mapGroups_sameTraffic t _).trans (.foldl (loseAnchor_sameTraffic p) allGroups _)
  have hmessages (t : State) : Drains t (t.retireMessages p) := .foldl (endMessage_drains p) allRecords t
  have hport (t : State) : SameTraffic t ((t.retireSends p).setPortState p final) :=
    (retireSends_sameTraffic t p).trans (setPortState_sameTraffic _ p final)
  exact ((htargets.trans (.traffic (hgroups _))).trans (hmessages _)).trans (.traffic (hport _))

theorem presenceEffect_drains (p : Port) (lostSeen present : Bool) (s : State) :
    Drains s (presenceEffect p lostSeen present s) := by
  unfold presenceEffect
  split
  · split
    · exact retire_drains s p _
    · exact .traffic (setPortState_sameTraffic s p _)
  · split
    · exact .traffic (setPortState_sameTraffic s p _)
    · exact .refl s

/-! ## What a command makes of the traffic -/

/-- What the command `i` can make of the traffic of `s`, with the checks that it has passed: the tables `t`, but for
what leaves the traffic as it is. Only SEND, FETCH, ACK, NACK, the two parts of a tick taking and HUB_RESET do more
than to withdraw targets. -/
inductive Change : Instr → State → State → Prop
  | drains (i : Instr) {s t : State} (h : Drains s t) : Change i s t
  | hubReset (s : State) : Change .hubReset s State.reset
  | send {p : Port} {g tag flags len dl : Byte} {s : State} {r : RecordIndex}
      (hpass : firstFail (sendChecks p g tag flags len dl s) = none) (hr : s.freeRecord = some r) :
      Change (.send p g tag flags len dl) s ((committed p g tag flags len dl r s).closeIfSettled none r)
  | fetch {p : Port} {s : State} {d : Delivery} {rest : List Delivery} {m : Message}
      (hpass : firstFail (fetchChecks p s) = none) (hqueue : (s.port p).queue = d :: rest)
      (hm : s.message d.handle.index = some m) :
      Change (.fetch p) s (if m.confirm then fetchConfirmed p d.handle s else fetchUnconfirmed p d.handle s)
  | ack {p : Port} {index generation : Byte} (code : Byte) {s : State} {h : Handle}
      (hheld : s.heldEntry p index generation = some h) : Change (.ack p index generation code) s (ackEffect p code h s)
  | nack {p : Port} {index generation : Byte} (code : Byte) {s : State} {h : Handle}
      (hheld : s.heldEntry p index generation = some h) :
      Change (.nack p index generation code) s (nackEffect p code h s)
  | tickTaking {s u : State} (h : SameTraffic s u) (c : Nat) : Change .tickTaking s (u.lowerRemaining c)
  | recordExpiry {s : State} {r : RecordIndex} (h : s.dueRecord = some r) : Change (.recordExpiry r) s (s.expire r)

/-- The command `i` changes the traffic of `s` into that of `t`. -/
def Changes (i : Instr) (s t : State) : Prop := ∃ u, Change i s u ∧ SameTraffic u t

theorem Changes.of_drains (i : Instr) {s t : State} (h : Drains s t) : Changes i s t := ⟨t, .drains i h, .refl t⟩

theorem Changes.of_traffic (i : Instr) {s t : State} (h : SameTraffic s t) : Changes i s t := .of_drains i (.traffic h)

theorem Change.changes {i : Instr} {s t : State} (h : Change i s t) : Changes i s t := ⟨t, h, .refl t⟩

theorem Changes.traffic {i : Instr} {s t u : State} (h : Changes i s t) (k : SameTraffic t u) : Changes i s u := by
  obtain ⟨v, hv, hvt⟩ := h
  exact ⟨v, hv, hvt.trans k⟩

/-- Whatever tables the effect of the command `i` gives, they are a change that `i` can make. -/
def EffectChanges (i : Instr) (s : State) (effect : CoreResult) : Prop :=
  ∀ t reply, effect = .ok (t, reply) → Changes i s t

theorem EffectChanges.ok {i : Instr} {s t : State} (reply : List Byte) (h : Changes i s t) :
    EffectChanges i s (.ok (t, reply)) := by
  intro u _ hu
  cases hu
  exact h

theorem EffectChanges.error (i : Instr) (s : State) (f : Fault) : EffectChanges i s (.error f) := by
  intro u _ hu
  cases hu

/-- A refusal changes no table (R171); the effect follows where every check passes. -/
theorem EffectChanges.judged {i : Instr} {s : State} {effect : CoreResult} {cs : List (Bool × ResultCode)}
    (h : firstFail cs = none → EffectChanges i s effect) : EffectChanges i s (judged s cs effect) := by
  intro t reply ht
  obtain ⟨_, _, rfl, _⟩ | ⟨hpass, he⟩ := judged_cases ht
  · exact .of_drains i (.refl _)
  · exact h hpass t reply he

theorem sendEffect_changes {p : Port} {g tag flags len dl : Byte} {s : State}
    (hpass : firstFail (sendChecks p g tag flags len dl s) = none) :
    EffectChanges (.send p g tag flags len dl) s (sendEffect p g tag flags len dl s) := by
  unfold sendEffect
  split
  · exact .error _ s _
  · rename_i r hr
    split
    · exact .error _ s _
    · exact .ok _ (Change.send hpass hr).changes

theorem fetchEffect_changes {p : Port} {s : State} (hpass : firstFail (fetchChecks p s) = none) :
    EffectChanges (.fetch p) s (fetchEffect p s) := by
  unfold fetchEffect
  split
  · exact .ok _ (.of_drains _ (.refl s))
  · rename_i d rest hqueue
    split
    · exact .error _ s _
    · rename_i m hm
      exact .ok _ (Change.fetch hpass hqueue hm).changes

theorem readEffect_changes (i : Instr) (p : Port) (index generation offset count : Byte) (s : State) :
    EffectChanges i s (readEffect p index generation offset count s) := by
  unfold readEffect
  split
  · exact .error _ s _
  · exact .ok _ (.of_drains _ (.refl s))

theorem takeEffect_changes (i : Instr) (p : Port) (s : State) : EffectChanges i s (takeEffect p s) := by
  unfold takeEffect
  split
  · exact .ok _ (.of_drains _ (.refl s))
  · exact .ok _ (.of_traffic _ (takeDone_sameTraffic s p _))

theorem answerEffect_changes {i : Instr} {p : Port} {index generation : Byte} {effect : Handle → State → State}
    {s : State} (h : ∀ k, s.heldEntry p index generation = some k → Change i s (effect k s)) :
    EffectChanges i s (answerEffect p index generation effect s) := by
  unfold answerEffect
  split
  · exact .ok _ (.of_drains _ (.refl s))
  · rename_i k hk
    exact .ok _ (h k hk).changes

/-- The taking of a command slot changes the traffic as the command's effect does. -/
theorem takeCommand_changes {i : Instr} (p : Port) (req : Request) {effect : State → CoreResult} {s : State}
    (h : EffectChanges i s (effect s)) : OnNext (takeCommand p req effect s) (Changes i s) := by
  intro u hu
  obtain ⟨_, rfl⟩ | ⟨_, t, reply, he, rfl⟩ := takeCommand_cases hu
  · exact .of_drains i (.refl u)
  · exact (h t reply he).traffic (afterTaking_sameTraffic p t reply)

/-- The taking of a command that is judged and, where it passes, withdraws targets at most. -/
theorem takeOkAlone_changes (i : Instr) (p : Port) {req : Request} {checks : State → List (Bool × ResultCode)}
    {effect : State → State} {s : State} (h : Drains s (effect s)) :
    OnNext (takeCommand p req (fun s => judged s (checks s) (okAlone (effect s))) s) (Changes i s) :=
  takeCommand_changes p req (.judged fun _ => .ok _ (.of_drains i h))

theorem execSend_changes (p : Port) (g tag flags len dl : Byte) (s : State) :
    OnNext (execSend p g tag flags len dl s) (Changes (.send p g tag flags len dl) s) := by
  refine takeCommand_changes p _ fun t reply ht => ?_
  obtain ⟨u, hu, rfl⟩ := execSend_effect ht
  exact (EffectChanges.judged (fun hpass => sendEffect_changes hpass) _ _ hu).traffic (modPfe_sameTraffic u p _)

theorem execTickTaking_changes (s : State) : OnNext (execTickTaking s) (Changes .tickTaking s) := by
  unfold execTickTaking
  split
  · exact onNext_next (((Change.tickTaking (setTickCount_sameTraffic s 0) _).changes.traffic
      (setArbiter_sameTraffic _ _ _)).traffic (endTick_sameTraffic _))
  · exact onNext_next (.of_drains _ (.refl s))

theorem execRecordExpiry_changes (r : RecordIndex) (s : State) :
    OnNext (execRecordExpiry r s) (Changes (.recordExpiry r) s) := by
  unfold execRecordExpiry
  split
  · rename_i hdue
    exact onNext_next ((Change.recordExpiry hdue).changes.traffic (endTick_sameTraffic _))
  · exact onNext_next (.of_drains _ (.refl s))

theorem execPresenceReport_changes (p : Port) (s : State) :
    OnNext (execPresenceReport p s) (Changes (.presenceReport p) s) := by
  unfold execPresenceReport
  split
  · have heffect := (Drains.traffic (modPfe_sameTraffic s p Pfe.takePresence)).trans (presenceEffect_drains p
      (s.pfe p).presence.lostSeen (s.pfe p).presence.level _)
    exact onNext_next (((Changes.of_drains _ heffect).traffic (setArbiter_sameTraffic _ _ _)).traffic
      (refresh_sameTraffic _))
  · exact onNext_next (.of_drains _ (.refl s))

theorem execHubReset_changes (s : State) : OnNext (execHubReset s) (Changes .hubReset s) := by
  have hsame : SameTraffic State.reset ((State.reset.setPool s.pool).setPending s.pending) :=
    .of_port (fun _ => rfl) fun _ => rfl
  exact onNext_next ((Change.hubReset s).changes.traffic (hsame.trans (mapPfes_sameTraffic _ _)))

/-- Every command changes the traffic in one of the ways of `Change`. -/
theorem exec_changes (i : Instr) (s : State) : OnNext (exec i s) (Changes i s) := by
  cases i with dsimp only [exec]
  | hubReset => exact execHubReset_changes s
  | tick prs => exact onNext_next (.of_traffic _ ((setTickCount_sameTraffic s _).trans (mapPfes_sameTraffic _ _)))
  | idleSelect p | select p _ | deselect p | byteCompletion p _ =>
    exact onNext_next (.of_traffic _ (pfeEvent_sameTraffic p _ s))
  | unknownCommand p _ | commandPost p _ | nop p | status p | clearFault p | setMask p _ =>
    exact onNext_next (.of_traffic _ (byteEventIf_sameTraffic p _ _ s))
  | attach p => exact takeOkAlone_changes _ p (.traffic (attachEffect_sameTraffic s p))
  | detach p => exact takeOkAlone_changes _ p (retire_drains s p .detached)
  | clearNotices p choice => exact takeOkAlone_changes _ p (.traffic (clearNoticesEffect_sameTraffic p choice s))
  | openGroup p _ _ _ _ _ | resize p _ _ =>
    exact takeOkAlone_changes _ p (.traffic ((setReserved_sameTraffic s _).trans (modGroup_sameTraffic _ _ _)))
  | close p g => exact takeOkAlone_changes _ p (.traffic (enterClosing_sameTraffic s _ p _))
  | join p g => exact takeOkAlone_changes _ p (.traffic (modGroup_sameTraffic s _ _))
  | leave p g =>
    exact takeOkAlone_changes _ p ((Drains.traffic (modGroup_sameTraffic s _ _)).trans (withdrawGroup_drains _ p _))
  | enrol p g port =>
    exact takeOkAlone_changes _ p (.traffic ((modGroup_sameTraffic s _ _).trans (notifyPort_sameTraffic _ p _)))
  | expel p g port =>
    exact takeOkAlone_changes _ p
      ((Drains.traffic ((modGroup_sameTraffic s _ _).trans (notifyPort_sameTraffic _ p _))).trans
        (withdrawGroup_drains _ _ _))
  | groupInfo p _ | roster p | poolInfo p =>
    exact takeCommand_changes p _ (.judged fun _ => .ok _ (.of_drains _ (.refl s)))
  | send p g tag flags len dl => exact execSend_changes p g tag flags len dl s
  | fetch p => exact takeCommand_changes p _ (.judged fetchEffect_changes)
  | read p index generation offset count =>
    exact takeCommand_changes p _ (.judged fun _ => readEffect_changes _ p index generation offset count s)
  | ack p index generation code =>
    exact takeCommand_changes p _ (.judged fun _ => answerEffect_changes fun _ hk => .ack code hk)
  | nack p index generation code =>
    exact takeCommand_changes p _ (.judged fun _ => answerEffect_changes fun _ hk => .nack code hk)
  | take p => exact takeCommand_changes p _ (.judged fun _ => takeEffect_changes _ p s)
  | tickTaking => exact execTickTaking_changes s
  | recordExpiry r => exact execRecordExpiry_changes r s
  | presenceReport p => exact execPresenceReport_changes p s
  | _ => -- RECALL, whose constructor has the name of a Mathlib command
    exact onNext_next (.of_traffic _ ((byteEventIf_sameTraffic _ _ _ s).trans (noteUnderway_sameTraffic _ _ _ _)))

/-- A law of the traffic that every change keeps is kept by every step. -/
theorem step_keeps {P : State → Prop} (htraffic : ∀ s t, SameTraffic s t → P s → P t)
    (hchange : ∀ i s t, Change i s t → P s → P t) {s : State} (hs : P s) : OnNext (step s) P := by
  unfold step
  cases s.pending with
  | nil => exact onNext_next hs
  | cons i rest =>
    intro t ht
    obtain ⟨u, hu, hut⟩ := exec_changes i (s.setPending rest) t ht
    exact htraffic u t hut (hchange i _ u hu (htraffic s _ (setPending_sameTraffic s rest) hs))

end Sys2Proof.Machine.Traffic

namespace Sys2Proof.Machine.Queues

open Laws MessagePool Sending Traffic

/-! ## What can only run down: queues, lists and records (R64, R67, R76, R91, R103) -/

/-- `t` has no delivery, held entry, further send-list entry or message that `s` has not, and no other order of them;
the messages that are left have the remaining time that they had. -/
structure Subsides (s t : State) : Prop where
  queue     : ∀ p, (t.port p).queue.Sublist (s.port p).queue
  held      : ∀ p, (t.port p).held.Sublist (s.port p).held
  sends     : ∀ p, (t.port p).sends.length ≤ (s.port p).sends.length
  remaining : ∀ r m, t.message r = some m → ∃ m', s.message r = some m' ∧ m'.remaining = m.remaining

theorem Subsides.of_traffic {s t : State} (h : SameTraffic s t) : Subsides s t :=
  ⟨fun p => by rw [h.queue], fun p => by rw [h.held], h.sends, fun r m hm => ⟨m, by rw [← h.message, hm], rfl⟩⟩

theorem Subsides.refl (s : State) : Subsides s s := .of_traffic (.refl s)

theorem Subsides.trans {s t u : State} (h : Subsides s t) (k : Subsides t u) : Subsides s u := by
  refine ⟨fun p => (k.queue p).trans (h.queue p), fun p => (k.held p).trans (h.held p),
    fun p => (k.sends p).trans (h.sends p), fun r m hm => ?_⟩
  obtain ⟨m', hm', hsame⟩ := k.remaining r m hm
  obtain ⟨m'', hm'', hsame'⟩ := h.remaining r m' hm'
  exact ⟨m'', hm'', hsame'.trans hsame⟩

theorem Subsides.foldl {α : Type} {f : State → α → State} (hf : ∀ s a, Subsides s (f s a)) (l : List α) (s : State) :
    Subsides s (l.foldl f s) := by
  induction l generalizing s with
  | nil => exact Subsides.refl s
  | cons a l ih => exact (hf s a).trans (ih (f s a))

/-- An update of one port that takes entries out of its queue and held list. -/
theorem modPort_subsides (s : State) (p : Port) {f : CorePort → CorePort} (hqueue : ∀ c, (f c).queue.Sublist c.queue)
    (hheld : ∀ c, (f c).held.Sublist c.held) (hsends : ∀ c, (f c).sends = c.sends) : Subsides s (s.modPort p f) := by
  refine ⟨fun q => ?_, fun q => ?_, fun q => ?_, fun r m hm => ⟨m, hm, rfl⟩⟩ <;> rw [modPort_port] <;> split
  · rename_i h; subst h; exact hqueue _
  · exact .refl _
  · rename_i h; subst h; exact hheld _
  · exact .refl _
  · rename_i h; subst h; rw [hsends]
  · exact le_rfl

theorem dropDelivery_subsides (s : State) (r : RecordIndex) (p : Port) : Subsides s (s.dropDelivery r p) :=
  modPort_subsides s p (fun _ => List.filter_sublist) (fun _ => .refl _) fun _ => rfl

theorem dropHeld_subsides (s : State) (r : RecordIndex) (p : Port) : Subsides s (s.dropHeld r p) :=
  modPort_subsides s p (fun _ => .refl _) (fun _ => List.filter_sublist) fun _ => rfl

theorem dropHead_subsides (s : State) (p : Port) : Subsides s (s.dropHead p) :=
  modPort_subsides s p (fun _ => List.tail_sublist _) (fun _ => .refl _) fun _ => rfl

/-- An update of a message that leaves its remaining time. -/
theorem modMessage_subsides (s : State) (r : RecordIndex) {f : Message → Message}
    (hf : ∀ m, (f m).remaining = m.remaining) : Subsides s (s.modMessage r f) := by
  refine ⟨fun _ => .refl _, fun _ => .refl _, fun _ => le_rfl, fun k m hm => ?_⟩
  by_cases h : r = k
  · subst h
    rw [modMessage_message_same, Option.map_eq_some_iff] at hm
    obtain ⟨m', hm', rfl⟩ := hm
    exact ⟨m', hm', (hf m').symm⟩
  · rw [modMessage_message_ne _ _ _ _ h] at hm
    exact ⟨m, hm, rfl⟩

theorem setTarget_subsides (s : State) (r : RecordIndex) (p : Port) (o : TargetOutcome) (code : Byte) :
    Subsides s (s.setTarget r p o code) := modMessage_subsides s r fun _ => rfl

theorem settle_subsides (s : State) (r : RecordIndex) (p : Port) (o : TargetOutcome) (code : Byte) :
    Subsides s (s.settle r p o code) := by
  rcases settle_cases s r p o code with h | h | h <;> rw [h]
  · exact .refl s
  · exact (dropDelivery_subsides s r p).trans (setTarget_subsides _ r p o code)
  · exact (dropHeld_subsides s r p).trans (setTarget_subsides _ r p o code)

theorem retireRecord_subsides (s : State) (r : RecordIndex) : Subsides s (s.modRecord r TransitRecord.retire) := by
  refine ⟨fun _ => .refl _, fun _ => .refl _, fun _ => le_rfl, fun k m hm => ⟨m, ?_, rfl⟩⟩
  rw [State.message, modRecord_record] at hm
  split at hm
  · cases hm
  · exact hm

theorem closeIfSettled_subsides (s : State) (retiring : Option Port) (r : RecordIndex) :
    Subsides s (s.closeIfSettled retiring r) := by
  obtain h | ⟨m, hm, -, h⟩ := closeIfSettled_cases s retiring r <;> rw [h]
  · exact .refl s
  · obtain ⟨u, hu, hclose⟩ := closeRecord_eq_retire hm retiring
    rw [hclose]
    exact (Subsides.of_traffic hu).trans (retireRecord_subsides u r)

theorem withdraw_subsides (s : State) (retiring : Option Port) (r : RecordIndex) (p : Port) :
    Subsides s (s.withdraw retiring r p) := by
  unfold State.withdraw
  split
  · exact (settle_subsides s r p _ _).trans (closeIfSettled_subsides _ retiring r)
  · exact .refl s

theorem Subsides.of_drains {s t : State} (h : Drains s t) : Subsides s t :=
  h.keeps (P := Subsides s) (fun _ _ k hs => hs.trans (.of_traffic k))
    (fun u retiring r p hs => hs.trans (withdraw_subsides u retiring r p)) (.refl s)

theorem fetchUnconfirmed_subsides (p : Port) (h : Handle) (s : State) : Subsides s (fetchUnconfirmed p h s) :=
  ((dropHead_subsides s p).trans (setTarget_subsides _ _ p _ _)).trans (closeIfSettled_subsides _ none _)

theorem answer_subsides (p : Port) (h : Handle) (o : TargetOutcome) (code : Byte) (s : State) :
    Subsides s (answer p h o code s) :=
  (modPort_subsides s p (f := fun c => { c with held := c.held.filter fun k => k != h }) (fun _ => .refl _)
    (fun _ => List.filter_sublist) fun _ => rfl).trans (setTarget_subsides _ _ p o code)

theorem ackEffect_subsides (p : Port) (code : Byte) (h : Handle) (s : State) : Subsides s (ackEffect p code h s) :=
  (answer_subsides p h .acked code s).trans (closeIfSettled_subsides _ none _)

theorem stopMessage_subsides (s : State) (r : RecordIndex) : Subsides s (s.stopMessage r) := by
  have hstopped : Subsides s (s.modMessage r fun m => { m with stopped := true }) :=
    modMessage_subsides s r fun _ => rfl
  exact hstopped.trans (.foldl (fun t q => settle_subsides t r q _ _) allPorts _)

theorem nackEffect_subsides (p : Port) (code : Byte) (h : Handle) (s : State) : Subsides s (nackEffect p code h s) := by
  refine (answer_subsides p h .refused code s).trans (Subsides.trans ?_ (closeIfSettled_subsides _ none _))
  split
  · exact stopMessage_subsides _ _
  · exact .refl _

theorem expire_subsides (s : State) (r : RecordIndex) : Subsides s (s.expire r) := by
  have htargets : Subsides s (s.expireTargets r) :=
    .foldl (fun t q => (Subsides.of_traffic (missIfQueued_sameTraffic t r q)).trans (settle_subsides _ r q _ _))
      allPorts s
  exact htargets.trans (closeIfSettled_subsides _ none r)

/-! ## The sizes of queues and lists, and URGENT before NORMAL (R53, R63, R66, R111) -/

/-- The two laws of this part, port by port. -/
def QueueLaws (s : State) : Prop := CapacityLaw s ∧ UrgentFirstLaw s

theorem Subsides.queueLaws {s t : State} (h : Subsides s t) (hs : QueueLaws s) : QueueLaws t := by
  obtain ⟨hcap, hurgent⟩ := hs
  refine ⟨fun p => ?_, fun p => (hurgent p).sublist (h.queue p)⟩
  obtain ⟨hqueue, hheld, hsends⟩ := hcap p
  exact ⟨(h.queue p).length_le.trans hqueue, (h.held p).length_le.trans hheld, (h.sends p).trans hsends⟩

/-- A new delivery joins the queue and disturbs nothing (R53). -/
theorem insertDelivery_perm (d : Delivery) (q : List Delivery) : (insertDelivery d q).Perm (d :: q) := by
  unfold insertDelivery
  split
  · refine List.perm_middle.trans (.cons d (.of_eq ?_))
    exact List.takeWhile_append_dropWhile
  · exact List.perm_append_singleton d q

/-- The order of R63 between two deliveries. -/
abbrev UrgentFirst (a b : Delivery) : Prop := a.cls = .urgent ∨ b.cls = .normal

/-- The place of R53 keeps URGENT before NORMAL (R63). -/
theorem insertDelivery_urgentFirst (d : Delivery) {q : List Delivery} (hq : q.Pairwise UrgentFirst) :
    (insertDelivery d q).Pairwise UrgentFirst := by
  unfold insertDelivery
  split
  · rename_i hd
    have hurgent : ∀ e ∈ q.takeWhile (fun e => e.cls == .urgent), e.cls = .urgent := fun e he => by
      simpa using List.mem_takeWhile_imp he
    refine List.pairwise_append.2 ⟨hq.sublist (List.takeWhile_sublist _), List.pairwise_cons.2
      ⟨fun _ _ => .inl hd, hq.sublist (List.dropWhile_sublist _)⟩, fun a ha _ _ => .inl (hurgent a ha)⟩
  · rename_i hd
    refine List.pairwise_append.2 ⟨hq, List.pairwise_singleton _ _, fun _ _ b hb => .inr ?_⟩
    rw [List.mem_singleton.1 hb, hd]

/-- A queue that a SEND reaches keeps its limit and its order (R53, R54). -/
theorem offered_queueLaws (d : Delivery) (confirm : Bool) {c : CorePort} (hlen : c.queue.length ≤ 16)
    (horder : c.queue.Pairwise UrgentFirst) :
    (offered d confirm c).queue.length ≤ 16 ∧ (offered d confirm c).queue.Pairwise UrgentFirst := by
  unfold offered
  split
  · exact ⟨hlen, horder⟩
  · rename_i hroom
    have hinserted : (insertDelivery d c.queue).length = c.queue.length + 1 := (insertDelivery_perm d c.queue).length_eq
    simp only [Config.queueLimit] at hroom
    exact ⟨by dsimp only; omega, insertDelivery_urgentFirst d horder⟩

/-- Port q's queue once a SEND has reached its targets. -/
theorem committed_queue (p : Port) (g tag flags len dl : Byte) (r : RecordIndex) (s : State) (q : Port) :
    ((committed p g tag flags len dl r s).port q).queue =
      (portAfter s r (s.messageSent p g tag flags len dl) q).queue := by
  rw [committed_port]
  split <;> rfl

theorem committed_held (p : Port) (g tag flags len dl : Byte) (r : RecordIndex) (s : State) (q : Port) :
    ((committed p g tag flags len dl r s).port q).held = (s.port q).held :=
  (committed_delivered p g tag flags len dl r s).held q

/-- A check of R42 that has passed: the sender's window has room (R111). -/
theorem window_of_sendChecks {p : Port} {g tag flags len dl : Byte} {s : State}
    (hpass : firstFail (sendChecks p g tag flags len dl s) = none) : (s.port p).sends.length < 4 := by
  simpa [Config.windowLimit] using check_passed hpass (b := decide (Config.windowLimit ≤ (s.port p).sends.length))
    (code := .windowFull) (by simp [sendChecks])

theorem committed_queueLaws {p : Port} {g tag flags len dl : Byte} (r : RecordIndex) {s : State}
    (hpass : firstFail (sendChecks p g tag flags len dl s) = none) (hs : QueueLaws s) :
    QueueLaws (committed p g tag flags len dl r s) := by
  obtain ⟨hcap, hurgent⟩ := hs
  have hqueue (q : Port) : ((committed p g tag flags len dl r s).port q).queue.length ≤ 16 ∧
      ((committed p g tag flags len dl r s).port q).queue.Pairwise UrgentFirst := by
    obtain ⟨hlen, -⟩ := hcap q
    rw [committed_queue, portAfter]
    split
    · exact offered_queueLaws _ _ hlen (hurgent q)
    · exact ⟨hlen, hurgent q⟩
  refine ⟨fun q => ⟨(hqueue q).1, ?_, ?_⟩, fun q => (hqueue q).2⟩ <;> obtain ⟨-, hheld, hsends⟩ := hcap q
  · rwa [committed_held]
  · rw [committed_sends]
    split
    · rename_i h
      subst h
      have := window_of_sendChecks hpass
      simpa using this
    · exact hsends

/-- A check of R68 that has passed: the held list has room for a confirmed head. -/
theorem held_of_fetchChecks {p : Port} {s : State} (hpass : firstFail (fetchChecks p s) = none) {d : Delivery}
    {rest : List Delivery} {m : Message} (hqueue : (s.port p).queue = d :: rest)
    (hm : s.message d.handle.index = some m) (hc : m.confirm = true) : (s.port p).held.length < 4 := by
  have hfull := check_passed hpass (code := .holdFull)
    (b := (s.headMessage p).any (fun m => m.confirm) && decide (Config.heldLimit ≤ (s.port p).held.length))
    (by simp [fetchChecks])
  simpa [State.headMessage, hqueue, hm, hc, Config.heldLimit] using hfull

theorem fetchConfirmed_port (p : Port) (h : Handle) (s : State) (q : Port) :
    (fetchConfirmed p h s).port q =
      if p = q then { s.port q with queue := (s.port q).queue.tail, held := (s.port q).held ++ [h] }
      else s.port q := by
  rw [fetchConfirmed, State.setTarget, modMessage_port, modPort_port, State.dropHead]
  split
  · rename_i hq
    subst hq
    rw [modPort_port_same]
  · rename_i hq
    rw [modPort_port_ne _ _ _ _ hq]

theorem fetchConfirmed_queueLaws {p : Port} {h : Handle} {s : State} (hroom : (s.port p).held.length < 4)
    (hs : QueueLaws s) : QueueLaws (fetchConfirmed p h s) := by
  obtain ⟨hcap, hurgent⟩ := hs
  refine ⟨fun q => ?_, fun q => ?_⟩ <;> rw [fetchConfirmed_port] <;> split
  · rename_i hq
    subst hq
    obtain ⟨hqueue, -, hsends⟩ := hcap p
    have htail := (List.tail_sublist (s.port p).queue).length_le
    exact ⟨htail.trans hqueue, by simpa using hroom, hsends⟩
  · exact hcap q
  · exact (hurgent q).sublist (List.tail_sublist _)
  · exact hurgent q

theorem lowerRemaining_port (s : State) (c : Nat) (p : Port) : (s.lowerRemaining c).port p = s.port p :=
  mapRecords_port s _ p

theorem queueLaws_of_port {s t : State} (h : ∀ p, t.port p = s.port p) (hs : QueueLaws s) : QueueLaws t := by
  obtain ⟨hcap, hurgent⟩ := hs
  exact ⟨fun p => by rw [h]; exact hcap p, fun p => by rw [h]; exact hurgent p⟩

theorem reset_port (p : Port) : State.reset.port p = CorePort.reset := by simp [State.reset, State.port]

theorem reset_record (r : RecordIndex) : State.reset.record r = ⟨0, none⟩ := by simp [State.reset, State.record]

theorem queueLaws_reset : QueueLaws State.reset := by
  refine ⟨fun p => ?_, fun p => ?_⟩ <;> rw [reset_port]
  · exact ⟨Nat.zero_le _, Nat.zero_le _, Nat.zero_le _⟩
  · exact .nil

/-- A queue grows by SEND alone and a held list by FETCH alone, each behind the check that it has room. -/
theorem change_queueLaws {i : Instr} {s t : State} (h : Change i s t) (hs : QueueLaws s) : QueueLaws t := by
  cases h with
  | drains _ h => exact (Subsides.of_drains h).queueLaws hs
  | hubReset => exact queueLaws_reset
  | send hpass _ => exact (closeIfSettled_subsides _ none _).queueLaws (committed_queueLaws _ hpass hs)
  | fetch hpass hqueue hm =>
    split
    · rename_i hc
      exact fetchConfirmed_queueLaws (held_of_fetchChecks hpass hqueue hm hc) hs
    · exact (fetchUnconfirmed_subsides _ _ s).queueLaws hs
  | ack code _ => exact (ackEffect_subsides _ code _ s).queueLaws hs
  | nack code _ => exact (nackEffect_subsides _ code _ s).queueLaws hs
  | tickTaking h c => exact queueLaws_of_port (lowerRemaining_port _ c) ((Subsides.of_traffic h).queueLaws hs)
  | recordExpiry _ => exact (expire_subsides s _).queueLaws hs

/-- Settles O50: all but SEND and FETCH only take out of queues and lists, and those two have checked for room. -/
theorem everyStepKeepsQueueLaws : Obligations.EveryStepKeepsQueueLaws := fun _ hcap hurgent =>
  step_keeps (P := QueueLaws) (fun _ _ h => (Subsides.of_traffic h).queueLaws) (fun _ _ _ => change_queueLaws)
    ⟨hcap, hurgent⟩

/-! ## The remaining times (R50, R71, R99) -/

/-- No tick taking is in progress exactly while every message has time left (log entry 5). -/
theorem midTick_eq_false_iff {s : State} : s.midTick = false ↔ ∀ r m, s.message r = some m → m.remaining ≠ 0 := by
  simp only [State.midTick, Option.isSome_eq_false_iff, Option.isNone_iff_eq_none, State.dueRecord, List.find?_eq_none,
    List.mem_finRange, true_implies, Option.any_eq_true, not_exists, not_and, beq_iff_eq]

/-- Messages that keep their remaining times bring none to 0. -/
theorem midTick_of_remaining {s t : State} (hs : s.midTick = false)
    (h : ∀ r m, t.message r = some m → ∃ m', s.message r = some m' ∧ m'.remaining = m.remaining) :
    t.midTick = false := by
  rw [midTick_eq_false_iff] at hs ⊢
  intro r m hm
  obtain ⟨m', hm', hsame⟩ := h r m hm
  rw [← hsame]
  exact hs r m' hm'

theorem fetchConfirmed_remaining (p : Port) (h : Handle) (s : State) (r : RecordIndex) (m : Message)
    (hm : (fetchConfirmed p h s).message r = some m) :
    ∃ m', s.message r = some m' ∧ m'.remaining = m.remaining :=
  (setTarget_subsides _ h.index p .held 0).remaining r m hm

/-- A check of R42 that has passed: the group is not FREE. -/
theorem group_of_sendChecks {p : Port} {g tag flags len dl : Byte} {s : State}
    (hpass : firstFail (sendChecks p g tag flags len dl s) = none) : (s.group (groupNo g)).state ≠ .free := by
  simpa using check_passed hpass (b := (s.group (groupNo g)).state == .free) (code := .groupFree)
    (by simp [sendChecks])

/-- A SEND gives its message a deadline of 1 or more (R11, R50). -/
theorem messageSent_remaining {p : Port} {g tag flags len dl : Byte} {s : State}
    (hpass : firstFail (sendChecks p g tag flags len dl s) = none) (hs : BoundsLaw s) :
    (s.messageSent p g tag flags len dl).remaining ≠ 0 := by
  obtain ⟨-, hdeadline, -⟩ := hs
  obtain ⟨hleast, -⟩ := hdeadline _ (group_of_sendChecks hpass)
  dsimp only
  split
  · exact Nat.one_le_iff_ne_zero.1 hleast
  · rename_i h
    simpa [BitVec.toNat_eq] using h

theorem committed_midTick {p : Port} {g tag flags len dl : Byte} (r : RecordIndex) {s : State}
    (hpass : firstFail (sendChecks p g tag flags len dl s) = none) (hbounds : BoundsLaw s) (hs : s.midTick = false) :
    (committed p g tag flags len dl r s).midTick = false := by
  rw [midTick_eq_false_iff] at hs ⊢
  intro k m hm
  rw [State.message, committed_record] at hm
  split at hm
  · cases hm
    exact messageSent_remaining hpass hbounds
  · exact hs k m hm

theorem change_midTick {i : Instr} {s t : State} (h : Change i s t) (hi : i ≠ .tickTaking) (hbounds : BoundsLaw s)
    (hs : s.midTick = false) : t.midTick = false := by
  cases h with
  | drains _ h => exact midTick_of_remaining hs (Subsides.of_drains h).remaining
  | hubReset => exact midTick_eq_false_iff.2 fun r m hm => by rw [State.message, reset_record] at hm; cases hm
  | send hpass _ =>
    exact midTick_of_remaining (committed_midTick _ hpass hbounds hs) (closeIfSettled_subsides _ none _).remaining
  | fetch _ _ _ =>
    split
    · exact midTick_of_remaining hs (fetchConfirmed_remaining _ _ s)
    · exact midTick_of_remaining hs (fetchUnconfirmed_subsides _ _ s).remaining
  | ack code _ => exact midTick_of_remaining hs (ackEffect_subsides _ code _ s).remaining
  | nack code _ => exact midTick_of_remaining hs (nackEffect_subsides _ code _ s).remaining
  | tickTaking _ _ => exact absurd rfl hi
  | recordExpiry _ => exact midTick_of_remaining hs (expire_subsides s _).remaining

/-- Settles O47: a SEND starts with a deadline of 1 or more, and every other command but the tick taking leaves the
remaining times of the messages that stay. -/
theorem onlyTickTakingBringsRecordsToZero : Obligations.OnlyTickTakingBringsRecordsToZero := by
  intro s i hbounds hs hi t ht
  obtain ⟨u, hu, hut⟩ := exec_changes i s t ht
  exact midTick_of_remaining (change_midTick hu hi hbounds hs) (Subsides.of_traffic hut).remaining

end Sys2Proof.Machine.Queues

namespace Sys2Proof.Machine.Handles

open Laws MessagePool Sending Traffic Queues

/-! ## Outcomes (R88, R91) -/

/-- Setting the outcome of one target leaves every other (R88). -/
theorem outcomeOf_setTarget (m : Message) (p : Port) (o : TargetOutcome) (code : Byte) (q : Port) :
    (m.setTarget p o code).outcomeOf q = if q = p then (m.outcomeOf q).map fun _ => o else m.outcomeOf q := by
  simp only [Message.outcomeOf, Message.setTarget]
  induction m.targets with
  | nil => simp
  | cons x xs ih =>
    by_cases hx : x.port = q
    · subst hx
      by_cases h : x.port = p <;> simp [h]
    · have hset : (if x.port = p then { x with outcome := o, code := code } else x).port ≠ q := by split <;> exact hx
      simpa [List.find?_cons, hx, hset] using ih

theorem isOpen_iff {o : TargetOutcome} : o.isOpen = true ↔ o = .queued ∨ o = .held := by
  simp [TargetOutcome.isOpen]

/-- A target whose outcome is open is an open target of its message. -/
theorem hasOpenTarget_of_outcomeOf {m : Message} {p : Port} {o : TargetOutcome} (h : m.outcomeOf p = some o)
    (ho : o.isOpen = true) : m.hasOpenTarget = true := by
  obtain ⟨x, hx, rfl⟩ := Option.map_eq_some_iff.1 h
  exact List.any_eq_true.2 ⟨x, List.mem_of_find?_eq_some hx, ho⟩

/-- The targets of a message stand in ascending port order. -/
def Ascending (m : Message) : Prop := (m.targets.map Target.port).Pairwise (· < ·)

/-- In an ascending target list each port has one entry. -/
theorem outcomeOf_of_mem {m : Message} (hm : Ascending m) {x : Target} (hx : x ∈ m.targets) :
    m.outcomeOf x.port = some x.outcome := by
  rw [Ascending, List.pairwise_map] at hm
  rw [Message.outcomeOf]
  generalize m.targets = xs at hm hx
  induction xs with
  | nil => simp at hx
  | cons y ys ih =>
    obtain ⟨hfirst, hrest⟩ := List.pairwise_cons.1 hm
    obtain rfl | hx := List.mem_cons.1 hx
    · simp
    · have hne : y.port ≠ x.port := (hfirst x hx).ne
      simpa [List.find?_cons, hne] using ih hrest hx

theorem setTarget_cls (m : Message) (p : Port) (o : TargetOutcome) (code : Byte) :
    (m.setTarget p o code).cls = m.cls := rfl

theorem setTarget_ascending {m : Message} (hm : Ascending m) (p : Port) (o : TargetOutcome) (code : Byte) :
    Ascending (m.setTarget p o code) := by
  have hports : (m.setTarget p o code).targets.map Target.port = m.targets.map Target.port := by
    simp only [Message.setTarget, List.map_map]
    exact List.map_congr_left fun x _ => by dsimp only [Function.comp_apply]; split <;> rfl
  rw [Ascending, hports]
  exact hm

/-! ## The law of the handles, read from the records (R63, R66, R91) -/

/-- The records say that delivery `d` stands in port p's queue. -/
def QueuedAt (s : State) (p : Port) (d : Delivery) : Prop :=
  ∃ m, s.message d.handle.index = some m ∧ m.outcomeOf p = some .queued ∧ d = ⟨s.handle d.handle.index, m.cls⟩

/-- The records say that handle `h` stands in port p's held list. -/
def HeldAt (s : State) (p : Port) (h : Handle) : Prop :=
  ∃ m, s.message h.index = some m ∧ m.outcomeOf p = some .held ∧ h = s.handle h.index

/-- The targets of a message are in order, and only a confirmed one is held. -/
structure Sound (m : Message) : Prop where
  confirmed : ∀ p, m.outcomeOf p = some .held → m.confirm = true
  ascending : Ascending m

/-- Queues and held lists hold, each entry once, what the records say: the law of the handles but for its last
clause, which a taking breaks between the outcome of a target and the close of its record. -/
structure Agrees (s : State) : Prop where
  queueNodup : ∀ p, (s.port p).queue.Nodup
  heldNodup  : ∀ p, (s.port p).held.Nodup
  queued     : ∀ p d, d ∈ (s.port p).queue ↔ QueuedAt s p d
  held       : ∀ p h, h ∈ (s.port p).held ↔ HeldAt s p h
  sound      : ∀ r m, s.message r = some m → Sound m

/-- Every record but `r`, where one is named, has an open target or is FREE (R91). -/
def OpenBut (r : Option RecordIndex) (s : State) : Prop :=
  ∀ k m, some k ≠ r → s.message k = some m → m.hasOpenTarget = true

theorem targetIs_iff {s : State} {r : RecordIndex} {p : Port} {o : TargetOutcome} {f : Message → Bool} :
    s.targetIs r p o f = true ↔ ∃ m, s.message r = some m ∧ m.outcomeOf p = some o ∧ f m = true := by
  simp [State.targetIs, Option.any_eq_true]

theorem QueuedAt.cls_eq {s : State} {p : Port} {d : Delivery} {m : Message} (h : QueuedAt s p d)
    (hm : s.message d.handle.index = some m) : d = ⟨s.handle d.handle.index, m.cls⟩ := by
  obtain ⟨m', hm', -, hd⟩ := h
  cases hm.symm.trans hm'
  exact hd

/-- The law of the handles is what the records say, with an open target in each. -/
theorem handleLaw_iff {s : State} : HandleLaw s ↔ Agrees s ∧ OpenBut none s := by
  constructor
  · intro ⟨hnodup, hqueue, hheld, hback, hrecords⟩
    have hsound (r : RecordIndex) (m : Message) (hm : s.message r = some m) :
        m.hasOpenTarget = true ∧ Ascending m := by
      simpa [hm, Ascending] using hrecords r
    refine ⟨⟨fun p => (hnodup p).1.of_map, fun p => (hnodup p).2, fun p d => ⟨fun hd => ?_, fun hd => ?_⟩,
      fun p h => ⟨fun hh => ?_, fun hh => ?_⟩, fun r m hm => ⟨fun p hp => ?_, (hsound r m hm).2⟩⟩,
      fun r m _ hm => (hsound r m hm).1⟩
    · obtain ⟨hhandle, htarget⟩ := hqueue p d hd
      obtain ⟨m, hm, hqueued, hcls⟩ := targetIs_iff.1 htarget
      exact ⟨m, hm, hqueued, by rw [← hhandle, eq_of_beq hcls]⟩
    · obtain ⟨m, hm, hqueued, hcls⟩ := id hd
      obtain ⟨d', hd', hhandle'⟩ := List.mem_map.1 ((hback _ p).1 (targetIs_iff.2 ⟨m, hm, hqueued, rfl⟩))
      obtain ⟨-, htarget⟩ := hqueue p d' hd'
      obtain ⟨m', hm', -, hcls'⟩ := targetIs_iff.1 htarget
      rw [hhandle'] at hm'
      cases hm.symm.trans hm'
      rw [hcls, ← hhandle', eq_of_beq hcls']
      exact hd'
    · obtain ⟨hhandle, htarget⟩ := hheld p h hh
      obtain ⟨m, hm, houtcome, -⟩ := targetIs_iff.1 htarget
      exact ⟨m, hm, houtcome, hhandle⟩
    · obtain ⟨m, hm, houtcome, hhandle⟩ := hh
      rw [hhandle]
      exact (hback _ p).2 (targetIs_iff.2 ⟨m, hm, houtcome, rfl⟩)
    · obtain ⟨-, htarget⟩ := hheld p _ ((hback r p).2 (targetIs_iff.2 ⟨m, hm, hp, rfl⟩))
      obtain ⟨m', hm', -, hconfirm⟩ := targetIs_iff.1 htarget
      cases hm.symm.trans hm'
      exact hconfirm
  · intro ⟨hs, hopen⟩
    refine ⟨fun p => ⟨(hs.queueNodup p).map_on fun d hd d' hd' h => ?_, hs.heldNodup p⟩, fun p d hd => ?_,
      fun p h hh => ?_, fun r p => ⟨fun h => ?_, fun h => ?_⟩, fun r => ?_⟩
    · obtain ⟨m, hm, -, hdm⟩ := (hs.queued p d).1 hd
      have hdm' := ((hs.queued p d').1 hd').cls_eq (h ▸ hm)
      rw [hdm, hdm', h]
    · obtain ⟨m, hm, hqueued, hdm⟩ := (hs.queued p d).1 hd
      exact ⟨congrArg Delivery.handle hdm,
        targetIs_iff.2 ⟨m, hm, hqueued, beq_iff_eq.2 (congrArg Delivery.cls hdm).symm⟩⟩
    · obtain ⟨m, hm, houtcome, hhandle⟩ := (hs.held p h).1 hh
      exact ⟨hhandle, targetIs_iff.2 ⟨m, hm, houtcome, (hs.sound _ m hm).confirmed p houtcome⟩⟩
    · obtain ⟨m, hm, hqueued, -⟩ := targetIs_iff.1 h
      exact List.mem_map.2 ⟨⟨s.handle r, m.cls⟩, (hs.queued p _).2 ⟨m, hm, hqueued, rfl⟩, rfl⟩
    · obtain ⟨m, hm, houtcome, -⟩ := targetIs_iff.1 h
      exact (hs.held p _).2 ⟨m, hm, houtcome, rfl⟩
    · cases hm : s.message r with
      | none => rfl
      | some m => simpa using ⟨hopen r m (by simp) hm, (hs.sound r m hm).ascending⟩

/-- Where the records hold no queued outcome of a port, its queue names no such record. -/
theorem Agrees.index_ne_of_queue {s : State} (hs : Agrees s) {p : Port} {r : RecordIndex}
    (h : ∀ m, s.message r = some m → m.outcomeOf p ≠ some .queued) {d : Delivery} (hd : d ∈ (s.port p).queue) :
    d.handle.index ≠ r := by
  rintro rfl
  obtain ⟨m, hm, hqueued, -⟩ := (hs.queued p d).1 hd
  exact h m hm hqueued

theorem Agrees.index_ne_of_held {s : State} (hs : Agrees s) {p : Port} {r : RecordIndex}
    (h : ∀ m, s.message r = some m → m.outcomeOf p ≠ some .held) {k : Handle} (hk : k ∈ (s.port p).held) :
    k.index ≠ r := by
  rintro rfl
  obtain ⟨m, hm, houtcome, -⟩ := (hs.held p k).1 hk
  exact h m hm houtcome

/-- A delivery is the record's exactly when it names the record's index (R87). -/
theorem Agrees.handle_eq_iff {s : State} (hs : Agrees s) {p : Port} {d : Delivery} (hd : d ∈ (s.port p).queue)
    (r : RecordIndex) : d.handle = s.handle r ↔ d.handle.index = r := by
  obtain ⟨_, -, -, h⟩ := (hs.queued p d).1 hd
  refine ⟨fun h => congrArg Handle.index h, ?_⟩
  rintro rfl
  exact congrArg Delivery.handle h

theorem Agrees.held_eq_iff {s : State} (hs : Agrees s) {p : Port} {h : Handle} (hh : h ∈ (s.port p).held)
    (r : RecordIndex) : h = s.handle r ↔ h.index = r := by
  obtain ⟨_, -, -, hhandle⟩ := (hs.held p h).1 hh
  refine ⟨fun h => congrArg Handle.index h, ?_⟩
  rintro rfl
  exact hhandle

/-! ## Operations that leave handles and outcomes as they are -/

/-- The part of a message that queues and held lists depend on. -/
def route (m : Message) : MsgClass × Bool × List Target := (m.cls, m.confirm, m.targets)

/-- `t` has the queues, held lists and handles of `s`, and each record's message with its class and its targets. -/
structure SameRoutes (s t : State) : Prop where
  queue   : ∀ p, (t.port p).queue = (s.port p).queue
  held    : ∀ p, (t.port p).held = (s.port p).held
  handle  : ∀ r, t.handle r = s.handle r
  message : ∀ r, (t.message r).map route = (s.message r).map route

theorem SameRoutes.of_traffic {s t : State} (h : SameTraffic s t) : SameRoutes s t :=
  ⟨h.queue, h.held, h.handle, fun r => by rw [h.message]⟩

theorem SameRoutes.symm {s t : State} (h : SameRoutes s t) : SameRoutes t s :=
  ⟨fun p => (h.queue p).symm, fun p => (h.held p).symm, fun r => (h.handle r).symm, fun r => (h.message r).symm⟩

theorem SameRoutes.exists_message {s t : State} (h : SameRoutes s t) {r : RecordIndex} {m : Message}
    (hm : s.message r = some m) :
    ∃ m', t.message r = some m' ∧ m'.cls = m.cls ∧ m'.confirm = m.confirm ∧ m'.targets = m.targets := by
  have hr := h.message r
  rw [hm, Option.map_some, Option.map_eq_some_iff] at hr
  obtain ⟨m', hm', hroute⟩ := hr
  simp only [route, Prod.mk.injEq] at hroute
  exact ⟨m', hm', hroute⟩

theorem SameRoutes.queuedAt {s t : State} (h : SameRoutes s t) {p : Port} {d : Delivery} (hd : QueuedAt s p d) :
    QueuedAt t p d := by
  obtain ⟨m, hm, hqueued, hdm⟩ := hd
  obtain ⟨m', hm', hcls, -, htargets⟩ := h.exists_message hm
  exact ⟨m', hm', by rwa [Message.outcomeOf, htargets], by rwa [h.handle, hcls]⟩

theorem SameRoutes.heldAt {s t : State} (h : SameRoutes s t) {p : Port} {k : Handle} (hk : HeldAt s p k) :
    HeldAt t p k := by
  obtain ⟨m, hm, houtcome, hkm⟩ := hk
  obtain ⟨m', hm', -, -, htargets⟩ := h.exists_message hm
  exact ⟨m', hm', by rwa [Message.outcomeOf, htargets], by rwa [h.handle]⟩

theorem SameRoutes.agrees {s t : State} (h : SameRoutes s t) (hs : Agrees s) : Agrees t := by
  refine ⟨fun p => by rw [h.queue]; exact hs.queueNodup p, fun p => by rw [h.held]; exact hs.heldNodup p,
    fun p d => ?_, fun p k => ?_, fun r m hm => ?_⟩
  · rw [h.queue, hs.queued]
    exact ⟨h.queuedAt, h.symm.queuedAt⟩
  · rw [h.held, hs.held]
    exact ⟨h.heldAt, h.symm.heldAt⟩
  · obtain ⟨m', hm', -, hconfirm, htargets⟩ := h.symm.exists_message hm
    obtain ⟨hconfirmed, hascending⟩ := hs.sound r m' hm'
    refine ⟨fun p hp => ?_, by rwa [Ascending, ← htargets]⟩
    rw [← hconfirm]
    exact hconfirmed p (by rwa [Message.outcomeOf, htargets])

theorem SameRoutes.openBut {s t : State} (h : SameRoutes s t) {r : Option RecordIndex} (hs : OpenBut r s) :
    OpenBut r t := by
  intro k m hk hm
  obtain ⟨m', hm', -, -, htargets⟩ := h.symm.exists_message hm
  rw [Message.hasOpenTarget, ← htargets]
  exact hs k m' hk hm'

/-- An update of a message that leaves its class, its confirm flag and its targets. -/
theorem modMessage_sameRoutes (s : State) (r : RecordIndex) {f : Message → Message} (hf : ∀ m, route (f m) = route m) :
    SameRoutes s (s.modMessage r f) := by
  refine ⟨fun _ => rfl, fun _ => rfl, modMessage_handle s r f, fun k => ?_⟩
  by_cases h : r = k
  · subst h
    rw [modMessage_message_same, Option.map_map]
    exact congrArg (fun g => (s.message r).map g) (funext hf)
  · rw [modMessage_message_ne _ _ _ _ h]

theorem lowerRemaining_sameRoutes (s : State) (c : Nat) : SameRoutes s (s.lowerRemaining c) := by
  refine ⟨fun p => by rw [lowerRemaining_port], fun p => by rw [lowerRemaining_port], fun r => ?_, fun r => ?_⟩
  · simp [State.lowerRemaining, State.handle]
  · simp only [State.lowerRemaining, State.message, mapRecords_record, Option.map_map]
    rfl

/-! ## The outcome of one target (R70, R76, R93 to R95, R100) -/

/-- In `t` the entry of port `p` in record `r` has the outcome `o`, which is not QUEUED, and the queue and held list of
`p` follow: its delivery is gone, and the record's handle is held exactly if `o` is HELD. -/
structure Retargeted (r : RecordIndex) (p : Port) (o : TargetOutcome) (code : Byte) (s t : State) : Prop where
  handle  : ∀ k, t.handle k = s.handle k
  message : t.message r = (s.message r).map fun m => m.setTarget p o code
  other   : ∀ k, k ≠ r → t.message k = s.message k
  ports   : ∀ q, q ≠ p → (t.port q).queue = (s.port q).queue ∧ (t.port q).held = (s.port q).held
  nodup   : (t.port p).queue.Nodup ∧ (t.port p).held.Nodup
  queue   : ∀ d, d ∈ (t.port p).queue ↔ d ∈ (s.port p).queue ∧ d.handle.index ≠ r
  held    : ∀ h, h ∈ (t.port p).held ↔ (h ∈ (s.port p).held ∧ h.index ≠ r) ∨ (o = .held ∧ h = s.handle r)

/-- What the records say of another port or another record is not changed. -/
theorem Retargeted.queuedAt_iff {r : RecordIndex} {p : Port} {o : TargetOutcome} {code : Byte} {s t : State}
    (h : Retargeted r p o code s t) {q : Port} {d : Delivery} (hne : q ≠ p ∨ d.handle.index ≠ r) :
    QueuedAt t q d ↔ QueuedAt s q d := by
  simp only [QueuedAt, h.handle]
  by_cases hr : d.handle.index = r
  · have hq : q ≠ p := hne.resolve_right (not_not_intro hr)
    rw [hr, h.message]
    cases s.message r with
    | none => simp
    | some m => simp [outcomeOf_setTarget, hq, setTarget_cls]
  · rw [h.other _ hr]

theorem Retargeted.heldAt_iff {r : RecordIndex} {p : Port} {o : TargetOutcome} {code : Byte} {s t : State}
    (h : Retargeted r p o code s t) {q : Port} {k : Handle} (hne : q ≠ p ∨ k.index ≠ r) :
    HeldAt t q k ↔ HeldAt s q k := by
  simp only [HeldAt, h.handle]
  by_cases hr : k.index = r
  · have hq : q ≠ p := hne.resolve_right (not_not_intro hr)
    rw [hr, h.message]
    cases s.message r with
    | none => simp
    | some m => simp [outcomeOf_setTarget, hq]
  · rw [h.other _ hr]

/-- Setting the outcome of a target together with its port's queue and held list keeps the two in agreement. -/
theorem Retargeted.agrees {r : RecordIndex} {p : Port} {o : TargetOutcome} {code : Byte} {s t : State} {m : Message}
    (h : Retargeted r p o code s t) (hm : s.message r = some m) (htarget : (m.outcomeOf p).isSome = true)
    (hqueued : o ≠ .queued) (hconfirm : o = .held → m.confirm = true) (hs : Agrees s) : Agrees t := by
  obtain ⟨old, hold⟩ := Option.isSome_iff_exists.1 htarget
  have hm' : t.message r = some (m.setTarget p o code) := by rw [h.message, hm, Option.map_some]
  have houtcome : (m.setTarget p o code).outcomeOf p = some o := by
    rw [outcomeOf_setTarget, if_pos rfl, hold, Option.map_some]
  refine ⟨fun q => ?_, fun q => ?_, fun q d => ?_, fun q k => ?_, fun k m' hk => ?_⟩
  · by_cases hq : q = p
    · subst hq; exact h.nodup.1
    · rw [(h.ports q hq).1]; exact hs.queueNodup q
  · by_cases hq : q = p
    · subst hq; exact h.nodup.2
    · rw [(h.ports q hq).2]; exact hs.heldNodup q
  · by_cases hq : q = p
    · subst hq
      rw [h.queue]
      by_cases hd : d.handle.index = r
      · refine ⟨fun hd' => absurd hd hd'.2, fun ⟨m', hm'', hout, _⟩ => ?_⟩
        rw [hd, hm'] at hm''
        cases hm''
        exact absurd (houtcome.symm.trans hout) (by simpa using hqueued)
      · rw [h.queuedAt_iff (.inr hd), hs.queued]
        exact and_iff_left hd
    · rw [(h.ports q hq).1, h.queuedAt_iff (.inl hq), hs.queued]
  · by_cases hq : q = p
    · subst hq
      rw [h.held]
      by_cases hk : k.index = r
      · refine ⟨?_, fun ⟨m', hm'', hout, hhandle⟩ => .inr ?_⟩
        · rintro (⟨_, hne⟩ | ⟨rfl, rfl⟩)
          · exact absurd hk hne
          · exact ⟨_, hm', houtcome, (h.handle r).symm⟩
        · rw [hk, hm'] at hm''
          cases hm''
          rw [houtcome, Option.some.injEq] at hout
          exact ⟨hout, by rw [hhandle, hk, h.handle]⟩
      · have hne : k ≠ s.handle r := fun hkr => hk (congrArg Handle.index hkr)
        rw [h.heldAt_iff (.inr hk), hs.held]
        simp [hk, hne]
    · rw [(h.ports q hq).2, h.heldAt_iff (.inl hq), hs.held]
  · by_cases hr : k = r
    · subst hr
      cases hm'.symm.trans hk
      obtain ⟨hconfirmed, hascending⟩ := hs.sound k m hm
      refine ⟨fun q hq => ?_, setTarget_ascending hascending p o code⟩
      by_cases hqp : q = p
      · subst hqp
        rw [houtcome, Option.some.injEq] at hq
        exact hconfirm hq
      · rw [outcomeOf_setTarget, if_neg hqp] at hq
        exact hconfirmed q hq
    · rw [h.other k hr] at hk
      exact hs.sound k m' hk

theorem setTarget_message (s : State) (r : RecordIndex) (p : Port) (o : TargetOutcome) (code : Byte)
    (k : RecordIndex) :
    (s.setTarget r p o code).message k =
      if r = k then (s.message k).map fun m => m.setTarget p o code else s.message k := by
  rw [State.setTarget]
  split
  · rename_i h
    subst h
    rw [modMessage_message_same]
  · rename_i h
    rw [modMessage_message_ne _ _ _ _ h]

/-- The tables of a port that is rid of record `r`: its delivery and its held entry are gone. -/
def ridOf (h : Handle) (c : CorePort) : CorePort :=
  { c with queue := c.queue.filter fun d => d.handle != h, held := c.held.filter fun k => k != h }

/-- A queue that names no delivery of a record is not changed by taking the record's out. -/
theorem Agrees.queue_filter_eq {s : State} (hs : Agrees s) {p : Port} {r : RecordIndex}
    (h : ∀ m, s.message r = some m → m.outcomeOf p ≠ some .queued) :
    ((s.port p).queue.filter fun d => d.handle != s.handle r) = (s.port p).queue :=
  List.filter_eq_self.2 fun _ hd => bne_iff_ne.2 fun hr => hs.index_ne_of_queue h hd (congrArg Handle.index hr)

theorem Agrees.held_filter_eq {s : State} (hs : Agrees s) {p : Port} {r : RecordIndex}
    (h : ∀ m, s.message r = some m → m.outcomeOf p ≠ some .held) :
    ((s.port p).held.filter fun k => k != s.handle r) = (s.port p).held :=
  List.filter_eq_self.2 fun _ hk => bne_iff_ne.2 fun hr => hs.index_ne_of_held h hk (congrArg Handle.index hr)

/-- The delivery alone goes where the target is not HELD. -/
theorem Agrees.dropDelivery_port {s : State} (hs : Agrees s) {p : Port} {r : RecordIndex}
    (h : ∀ m, s.message r = some m → m.outcomeOf p ≠ some .held) (q : Port) :
    (s.dropDelivery r p).port q = if p = q then ridOf (s.handle r) (s.port q) else s.port q := by
  rw [State.dropDelivery, modPort_port]
  split
  · rename_i hq
    subst hq
    rw [ridOf, hs.held_filter_eq h]
  · rfl

theorem Agrees.dropHeld_port {s : State} (hs : Agrees s) {p : Port} {r : RecordIndex}
    (h : ∀ m, s.message r = some m → m.outcomeOf p ≠ some .queued) (q : Port) :
    (s.dropHeld r p).port q = if p = q then ridOf (s.handle r) (s.port q) else s.port q := by
  rw [State.dropHeld, modPort_port]
  split
  · rename_i hq
    subst hq
    rw [ridOf, hs.queue_filter_eq h]
  · rfl

theorem settle_of_queued {s : State} {r : RecordIndex} {p : Port} {m : Message} (hm : s.message r = some m)
    (h : m.outcomeOf p = some .queued) (o : TargetOutcome) (code : Byte) :
    s.settle r p o code = (s.dropDelivery r p).setTarget r p o code := by
  simp [State.settle, hm, h]

theorem settle_of_held {s : State} {r : RecordIndex} {p : Port} {m : Message} (hm : s.message r = some m)
    (h : m.outcomeOf p = some .held) (o : TargetOutcome) (code : Byte) :
    s.settle r p o code = (s.dropHeld r p).setTarget r p o code := by
  simp [State.settle, hm, h]

/-- A target that is no longer open, or is none, stays as it is. -/
theorem settle_of_not_open {s : State} {r : RecordIndex} {p : Port}
    (h : ∀ m, s.message r = some m → m.outcomeOf p ≠ some .queued ∧ m.outcomeOf p ≠ some .held) (o : TargetOutcome)
    (code : Byte) : s.settle r p o code = s := by
  cases hm : s.message r with
  | none => simp [State.settle, hm]
  | some m =>
    obtain ⟨hqueued, hheld⟩ := h m hm
    rw [State.settle, hm, Option.bind_some]
    split
    · contradiction
    · contradiction
    · rfl

/-- Settling a target rids its port of the record, whatever its outcome was (R76, R95, R100). -/
theorem Agrees.settle_port {s : State} (hs : Agrees s) (r : RecordIndex) (p : Port) (o : TargetOutcome) (code : Byte)
    (q : Port) :
    (s.settle r p o code).port q = if p = q then ridOf (s.handle r) (s.port q) else s.port q := by
  by_cases hopen : ∃ m, s.message r = some m ∧ (m.outcomeOf p = some .queued ∨ m.outcomeOf p = some .held)
  · obtain ⟨m, hm, hqueued | hheld⟩ := hopen
    · rw [settle_of_queued hm hqueued, State.setTarget, modMessage_port]
      refine hs.dropDelivery_port (fun m' hm' => ?_) q
      cases hm.symm.trans hm'
      simp [hqueued]
    · rw [settle_of_held hm hheld, State.setTarget, modMessage_port]
      refine hs.dropHeld_port (fun m' hm' => ?_) q
      cases hm.symm.trans hm'
      simp [hheld]
  · push Not at hopen
    rw [settle_of_not_open hopen]
    split
    · rename_i hq
      subst hq
      rw [ridOf, hs.queue_filter_eq fun m hm => (hopen m hm).1, hs.held_filter_eq fun m hm => (hopen m hm).2]
    · rfl

theorem settle_handle (s : State) (r : RecordIndex) (p : Port) (o : TargetOutcome) (code : Byte) (k : RecordIndex) :
    (s.settle r p o code).handle k = s.handle k := by
  rcases settle_cases s r p o code with h | h | h <;> rw [h]
  · exact modMessage_handle _ r _ k
  · exact modMessage_handle _ r _ k

theorem settle_message_ne (s : State) {r : RecordIndex} (p : Port) (o : TargetOutcome) (code : Byte)
    {k : RecordIndex} (h : k ≠ r) : (s.settle r p o code).message k = s.message k := by
  rcases settle_cases s r p o code with hs | hs | hs <;> rw [hs]
  · rw [setTarget_message, if_neg h.symm]; rfl
  · rw [setTarget_message, if_neg h.symm]; rfl

/-- An open target's outcome and code are set (R76, R95, R100). -/
theorem settle_message_of_open {s : State} {r : RecordIndex} {p : Port} {m : Message} (hm : s.message r = some m)
    (h : m.outcomeOf p = some .queued ∨ m.outcomeOf p = some .held) (o : TargetOutcome) (code : Byte) :
    (s.settle r p o code).message r = some (m.setTarget p o code) := by
  obtain h | h := h
  · rw [settle_of_queued hm h, setTarget_message, if_pos rfl, State.dropDelivery, modPort_message, hm, Option.map_some]
  · rw [settle_of_held hm h, setTarget_message, if_pos rfl, State.dropHeld, modPort_message, hm, Option.map_some]

theorem Agrees.mem_ridOf_queue {s : State} (hs : Agrees s) (r : RecordIndex) (p : Port) (d : Delivery) :
    d ∈ (ridOf (s.handle r) (s.port p)).queue ↔ d ∈ (s.port p).queue ∧ d.handle.index ≠ r := by
  rw [ridOf, List.mem_filter, bne_iff_ne]
  exact and_congr_right fun hd => not_congr (hs.handle_eq_iff hd r)

theorem Agrees.mem_ridOf_held {s : State} (hs : Agrees s) (r : RecordIndex) (p : Port) (h : Handle) :
    h ∈ (ridOf (s.handle r) (s.port p)).held ↔ h ∈ (s.port p).held ∧ h.index ≠ r := by
  rw [ridOf, List.mem_filter, bne_iff_ne]
  exact and_congr_right fun hh => not_congr (hs.held_eq_iff hh r)

theorem Agrees.settle_retargeted {s : State} (hs : Agrees s) {r : RecordIndex} {p : Port} {m : Message}
    (hm : s.message r = some m) (hopen : m.outcomeOf p = some .queued ∨ m.outcomeOf p = some .held)
    {o : TargetOutcome} (ho : o ≠ .held) (code : Byte) : Retargeted r p o code s (s.settle r p o code) where
  handle := settle_handle s r p o code
  message := by rw [settle_message_of_open hm hopen, hm, Option.map_some]
  other k hk := settle_message_ne s p o code hk
  ports q hq := by rw [hs.settle_port, if_neg (Ne.symm hq)]; exact ⟨rfl, rfl⟩
  nodup := by
    rw [hs.settle_port, if_pos rfl]
    exact ⟨(hs.queueNodup p).filter _, (hs.heldNodup p).filter _⟩
  queue d := by rw [hs.settle_port, if_pos rfl]; exact hs.mem_ridOf_queue r p d
  held h := by
    rw [hs.settle_port, if_pos rfl, hs.mem_ridOf_held r p h]
    simp [ho]

/-- Making a target final keeps queues and held lists in agreement with the outcomes. -/
theorem Agrees.settle {s : State} (hs : Agrees s) (r : RecordIndex) (p : Port) {o : TargetOutcome}
    (ho : o.isOpen = false) (code : Byte) : Agrees (s.settle r p o code) := by
  have hfinal : o ≠ .queued ∧ o ≠ .held := by
    constructor <;> (rintro rfl; cases ho)
  by_cases hopen : ∃ m, s.message r = some m ∧ (m.outcomeOf p = some .queued ∨ m.outcomeOf p = some .held)
  · obtain ⟨m, hm, hopen⟩ := hopen
    refine (hs.settle_retargeted hm hopen hfinal.2 code).agrees hm ?_ hfinal.1 (fun h => absurd h hfinal.2) hs
    rcases hopen with h | h <;> rw [h] <;> rfl
  · push Not at hopen
    rwa [settle_of_not_open hopen]

/-! ## Within a taking: one record may be without an open target until its close is checked (R91) -/

/-- The law of the handles, but that record `r` may have no open target. -/
structure Settling (r : RecordIndex) (s : State) : Prop where
  agrees  : Agrees s
  openBut : OpenBut (some r) s

theorem Settling.of_law {s : State} (hs : HandleLaw s) (r : RecordIndex) : Settling r s := by
  obtain ⟨hagrees, hopen⟩ := handleLaw_iff.1 hs
  exact ⟨hagrees, fun k m _ hm => hopen k m (by simp) hm⟩

theorem Settling.sameRoutes {r : RecordIndex} {s t : State} (hs : Settling r s) (h : SameRoutes s t) : Settling r t :=
  ⟨h.agrees hs.agrees, h.openBut hs.openBut⟩

theorem Settling.settle {r : RecordIndex} {s : State} (hs : Settling r s) (p : Port) {o : TargetOutcome}
    (ho : o.isOpen = false) (code : Byte) : Settling r (s.settle r p o code) := by
  refine ⟨hs.agrees.settle r p ho code, fun k m hk hm => ?_⟩
  rw [settle_message_ne s p o code fun h => hk (congrArg some h)] at hm
  exact hs.openBut k m hk hm

theorem Settling.foldl {r : RecordIndex} {f : State → Port → State} (hf : ∀ s q, Settling r s → Settling r (f s q))
    (qs : List Port) {s : State} (hs : Settling r s) : Settling r (qs.foldl f s) := by
  induction qs generalizing s with
  | nil => exact hs
  | cons q qs ih => exact ih (hf s q hs)

/-- A record without an open target stands in no queue and no held list, so that its generation may advance (R87). -/
theorem Agrees.retire {s : State} (hs : Agrees s) {r : RecordIndex} {m : Message} (hm : s.message r = some m)
    (hclosed : m.hasOpenTarget = false) : Agrees (s.modRecord r TransitRecord.retire) := by
  have hmessage (k : RecordIndex) :
      (s.modRecord r TransitRecord.retire).message k = if r = k then none else s.message k := by
    rw [State.message, modRecord_record]
    split <;> rfl
  have hhandle {k : RecordIndex} (hk : k ≠ r) : (s.modRecord r TransitRecord.retire).handle k = s.handle k := by
    rw [State.handle, modRecord_record, if_neg hk.symm, State.handle]
  have hfinal (p : Port) (o : TargetOutcome) (ho : o.isOpen = true) (m' : Message) (hm' : s.message r = some m') :
      m'.outcomeOf p ≠ some o := fun h => by
    cases hm.symm.trans hm'
    rw [hasOpenTarget_of_outcomeOf h ho] at hclosed
    cases hclosed
  refine ⟨hs.queueNodup, hs.heldNodup, fun p d => ?_, fun p k => ?_, fun k m' hk => ?_⟩
  · rw [modRecord_port]
    by_cases hd : d.handle.index = r
    · refine ⟨fun hmem => absurd hd (hs.index_ne_of_queue (hfinal p _ rfl) hmem), fun ⟨m', hm', _⟩ => ?_⟩
      rw [hmessage, if_pos hd.symm] at hm'
      cases hm'
    · rw [hs.queued, QueuedAt, QueuedAt, hmessage, if_neg (Ne.symm hd), hhandle hd]
  · rw [modRecord_port]
    by_cases hk : k.index = r
    · refine ⟨fun hmem => absurd hk (hs.index_ne_of_held (hfinal p _ rfl) hmem), fun ⟨m', hm', _⟩ => ?_⟩
      rw [hmessage, if_pos hk.symm] at hm'
      cases hm'
    · rw [hs.held, HeldAt, HeldAt, hmessage, if_neg (Ne.symm hk), hhandle hk]
  · rw [hmessage] at hk
    split at hk
    · cases hk
    · exact hs.sound k m' hk

/-- The check of R91 restores the law: the record closes exactly where it has no open target. -/
theorem Settling.closeIfSettled {r : RecordIndex} {s : State} (hs : Settling r s) (retiring : Option Port) :
    HandleLaw (s.closeIfSettled retiring r) := by
  refine handleLaw_iff.2 ?_
  cases hm : s.message r with
  | none =>
    have hsame : s.closeIfSettled retiring r = s := by simp [State.closeIfSettled, hm]
    rw [hsame]
    refine ⟨hs.agrees, fun k m _ hk => hs.openBut k m (fun h => ?_) hk⟩
    cases h
    cases hm.symm.trans hk
  | some m =>
    cases hclosed : m.hasOpenTarget with
    | true =>
      rw [closeIfSettled_open hm hclosed]
      refine ⟨hs.agrees, fun k m' _ hk => ?_⟩
      by_cases h : k = r
      · subst h
        cases hm.symm.trans hk
        exact hclosed
      · exact hs.openBut k m' (fun hk => h (Option.some.inj hk)) hk
    | false =>
      obtain ⟨u, hu, hclose⟩ := closeRecord_eq_retire hm retiring
      have hu' := SameRoutes.of_traffic hu
      rw [closeIfSettled_settled hm hclosed, hclose]
      refine ⟨(hu'.agrees hs.agrees).retire ((hu.message r).trans hm) hclosed, fun k m' _ hk => ?_⟩
      rw [State.message, modRecord_record] at hk
      split at hk
      · cases hk
      · rename_i hne
        exact hu'.openBut hs.openBut k m' (fun h => hne (Option.some.inj h).symm) hk

theorem withdraw_handleLaw (s : State) (retiring : Option Port) (r : RecordIndex) (p : Port) (hs : HandleLaw s) :
    HandleLaw (s.withdraw retiring r p) := by
  unfold State.withdraw
  split
  · exact ((Settling.of_law hs r).settle p rfl 0).closeIfSettled retiring
  · exact hs

theorem SameRoutes.handleLaw {s t : State} (h : SameRoutes s t) (hs : HandleLaw s) : HandleLaw t := by
  obtain ⟨hagrees, hopen⟩ := handleLaw_iff.1 hs
  exact handleLaw_iff.2 ⟨h.agrees hagrees, h.openBut hopen⟩

/-! ## FETCH, ACK, NACK and the expiry of a record -/

/-- The head of a queue stands in it once, so that to drop the head is to drop its record's delivery (R64). -/
theorem Agrees.dropHead_eq {s : State} (hs : Agrees s) {p : Port} {d : Delivery} {rest : List Delivery}
    (hqueue : (s.port p).queue = d :: rest) : s.dropHead p = s.dropDelivery d.handle.index p := by
  have hhead : d ∈ (s.port p).queue := by simp [hqueue]
  have hd : d.handle = s.handle d.handle.index := (hs.handle_eq_iff hhead _).2 rfl
  have hnodup := hs.queueNodup p
  rw [hqueue, List.nodup_cons] at hnodup
  have hrest : rest.filter (fun e => e.handle != s.handle d.handle.index) = rest := by
    refine List.filter_eq_self.2 fun e he => bne_iff_ne.2 fun h => hnodup.1 ?_
    obtain ⟨m, hm, -, hdm⟩ := (hs.queued p d).1 hhead
    have hem := (hs.queued p e).1 (by simp [hqueue, he])
    have hindex : e.handle.index = d.handle.index := by rw [h]; rfl
    have hed := hem.cls_eq (by rw [hindex]; exact hm)
    rw [hindex, ← hdm] at hed
    exact hed ▸ he
  rw [State.dropHead, State.dropDelivery, State.modPort, State.modPort, hqueue, List.filter_cons, hrest]
  simp [← hd]

/-- The head of a queue names a record of which the port is a QUEUED target (R63). -/
theorem Agrees.head_queued {s : State} (hs : Agrees s) {p : Port} {d : Delivery} {rest : List Delivery} {m : Message}
    (hqueue : (s.port p).queue = d :: rest) (hm : s.message d.handle.index = some m) :
    m.outcomeOf p = some .queued := by
  obtain ⟨m', hm', hqueued, -⟩ := (hs.queued p d).1 (by simp [hqueue])
  cases hm.symm.trans hm'
  exact hqueued

theorem fetchUnconfirmed_handleLaw {s : State} (hs : HandleLaw s) {p : Port} {d : Delivery} {rest : List Delivery}
    {m : Message} (hqueue : (s.port p).queue = d :: rest) (hm : s.message d.handle.index = some m) :
    HandleLaw (fetchUnconfirmed p d.handle s) := by
  have hsettling := Settling.of_law hs d.handle.index
  have hqueued := hsettling.agrees.head_queued hqueue hm
  rw [fetchUnconfirmed, hsettling.agrees.dropHead_eq hqueue, ← settle_of_queued hm hqueued]
  exact (hsettling.settle p rfl 0).closeIfSettled none

theorem fetchConfirmed_message (p : Port) (h : Handle) (s : State) (k : RecordIndex) :
    (fetchConfirmed p h s).message k =
      if h.index = k then (s.message k).map fun m => m.setTarget p .held 0 else s.message k := by
  rw [fetchConfirmed, setTarget_message]
  rfl

theorem fetchConfirmed_handle (p : Port) (h : Handle) (s : State) (k : RecordIndex) :
    (fetchConfirmed p h s).handle k = s.handle k := modMessage_handle _ _ _ k

theorem Agrees.fetchConfirmed_retargeted {s : State} (hs : Agrees s) {p : Port} {d : Delivery} {rest : List Delivery}
    {m : Message} (hqueue : (s.port p).queue = d :: rest) (hm : s.message d.handle.index = some m) :
    Retargeted d.handle.index p .held 0 s (fetchConfirmed p d.handle s) := by
  have hqueued := hs.head_queued hqueue hm
  have hhead : d ∈ (s.port p).queue := by simp [hqueue]
  have hd : d.handle = s.handle d.handle.index := (hs.handle_eq_iff hhead _).2 rfl
  have hnotHeld (h : Handle) (hh : h ∈ (s.port p).held) : h.index ≠ d.handle.index := by
    refine hs.index_ne_of_held (fun m' hm' => ?_) hh
    cases hm.symm.trans hm'
    simp [hqueued]
  have htail : (s.port p).queue.tail = (ridOf (s.handle d.handle.index) (s.port p)).queue := by
    have hport : ((s.dropHead p).port p).queue = ((s.dropDelivery d.handle.index p).port p).queue := by
      rw [hs.dropHead_eq hqueue]
    rwa [State.dropHead, State.dropDelivery, modPort_port_same, modPort_port_same] at hport
  have hport := fetchConfirmed_port p d.handle s p
  rw [if_pos rfl, htail] at hport
  refine ⟨fetchConfirmed_handle p _ s, ?_, fun k hk => ?_, fun q hq => ?_, ?_, fun e => ?_, fun h => ?_⟩
  · rw [fetchConfirmed_message, if_pos rfl]
  · rw [fetchConfirmed_message, if_neg hk.symm]
  · rw [fetchConfirmed_port, if_neg hq.symm]
    exact ⟨rfl, rfl⟩
  · rw [hport]
    refine ⟨(hs.queueNodup p).filter _, List.nodup_append.2 ⟨hs.heldNodup p, List.nodup_singleton _, ?_⟩⟩
    rintro h hh k hk rfl
    exact hnotHeld h hh (congrArg Handle.index (List.mem_singleton.1 hk))
  · rw [hport]
    exact hs.mem_ridOf_queue d.handle.index p e
  · rw [hport, ← hd]
    simp only [List.mem_append, List.mem_singleton, true_and]
    exact or_congr_left (and_iff_left_of_imp (hnotHeld h)).symm

theorem fetchConfirmed_handleLaw {s : State} (hs : HandleLaw s) {p : Port} {d : Delivery} {rest : List Delivery}
    {m : Message} (hqueue : (s.port p).queue = d :: rest) (hm : s.message d.handle.index = some m)
    (hc : m.confirm = true) : HandleLaw (fetchConfirmed p d.handle s) := by
  obtain ⟨hagrees, hopen⟩ := handleLaw_iff.1 hs
  have hqueued := hagrees.head_queued hqueue hm
  refine handleLaw_iff.2 ⟨(hagrees.fetchConfirmed_retargeted hqueue hm).agrees hm (by rw [hqueued]; rfl) (by decide)
    (fun _ => hc) hagrees, fun k m' hk hm' => ?_⟩
  rw [fetchConfirmed_message] at hm'
  split at hm'
  · rename_i h
    subst h
    rw [hm, Option.map_some, Option.some.injEq] at hm'
    subst hm'
    refine hasOpenTarget_of_outcomeOf (p := p) (o := .held) ?_ rfl
    rw [outcomeOf_setTarget, if_pos rfl, hqueued, Option.map_some]
  · exact hopen k m' hk hm'

/-- An answer settles the held target that it names (R93, R94). -/
theorem Agrees.answer_eq {s : State} (hs : Agrees s) {p : Port} {h : Handle} (hh : h ∈ (s.port p).held)
    (o : TargetOutcome) (code : Byte) : answer p h o code s = s.settle h.index p o code := by
  obtain ⟨m, hm, houtcome, hhandle⟩ := (hs.held p h).1 hh
  rw [settle_of_held hm houtcome, answer, State.dropHeld, ← hhandle]

theorem ackEffect_handleLaw {s : State} (hs : HandleLaw s) {p : Port} {h : Handle} (hh : h ∈ (s.port p).held)
    (code : Byte) : HandleLaw (ackEffect p code h s) := by
  have hsettling := Settling.of_law hs h.index
  rw [ackEffect, hsettling.agrees.answer_eq hh]
  exact (hsettling.settle p rfl code).closeIfSettled none

theorem Settling.stopMessage {r : RecordIndex} {s : State} (hs : Settling r s) : Settling r (s.stopMessage r) :=
  Settling.foldl (fun _ q ht => ht.settle q rfl 0) allPorts (hs.sameRoutes (modMessage_sameRoutes s r fun _ => rfl))

theorem nackEffect_handleLaw {s : State} (hs : HandleLaw s) {p : Port} {h : Handle} (hh : h ∈ (s.port p).held)
    (code : Byte) : HandleLaw (nackEffect p code h s) := by
  have hsettling := Settling.of_law hs h.index
  rw [nackEffect, hsettling.agrees.answer_eq hh]
  have hrefused := hsettling.settle p (o := .refused) rfl code
  refine Settling.closeIfSettled ?_ none
  split
  · exact hrefused.stopMessage
  · exact hrefused

theorem Settling.expireTargets {r : RecordIndex} {s : State} (hs : Settling r s) : Settling r (s.expireTargets r) :=
  Settling.foldl (fun t q ht => (ht.sameRoutes (.of_traffic (missIfQueued_sameTraffic t r q))).settle q rfl 0)
    allPorts hs

theorem expire_handleLaw {s : State} (hs : HandleLaw s) (r : RecordIndex) : HandleLaw (s.expire r) :=
  (Settling.of_law hs r).expireTargets.closeIfSettled none

/-! ## SEND (R51 to R54) -/

/-- The outcome of a port in the target list of a SEND. -/
theorem messageSent_outcomeOf (s : State) (p : Port) (g tag flags len dl : Byte) (q : Port) :
    (s.messageSent p g tag flags len dl).outcomeOf q =
      if q ∈ (s.targetsOf p g flags).map Target.port then some (targetAt q (s.port q)).outcome else none := by
  rw [targetsOf_ports, Message.outcomeOf]
  dsimp only
  rw [targetsOf_eq]
  induction snapshot p (flagLoopback flags) (s.group (groupNo g)) with
  | nil => rfl
  | cons k ks ih =>
    by_cases h : k = q
    · subst h
      simp [targetAt]
    · have hport : (targetAt k (s.port k)).port ≠ q := h
      simpa [List.find?_cons, hport, Ne.symm h] using ih

/-- Port q is a target of the SEND and its queue has room (R53). -/
def Reaches (s : State) (p : Port) (g flags : Byte) (q : Port) : Prop :=
  q ∈ (s.targetsOf p g flags).map Target.port ∧ ¬ 16 ≤ (s.port q).queue.length

theorem messageSent_queued_iff (s : State) (p : Port) (g tag flags len dl : Byte) (q : Port) :
    (s.messageSent p g tag flags len dl).outcomeOf q = some .queued ↔ Reaches s p g flags q := by
  rw [messageSent_outcomeOf, Reaches, targetAt]
  by_cases htarget : q ∈ (s.targetsOf p g flags).map Target.port
  · rw [if_pos htarget, and_iff_right htarget]
    by_cases h : 16 ≤ (s.port q).queue.length <;> simp [h]
  · rw [if_neg htarget]
    exact iff_of_false (by simp) fun h => htarget h.1

theorem messageSent_not_held (s : State) (p : Port) (g tag flags len dl : Byte) (q : Port) :
    (s.messageSent p g tag flags len dl).outcomeOf q ≠ some .held := by
  rw [messageSent_outcomeOf, targetAt]
  split
  · split <;> simp
  · simp

theorem messageSent_ascending (s : State) (p : Port) (g tag flags len dl : Byte) :
    Ascending (s.messageSent p g tag flags len dl) := by
  rw [Ascending, targetsOf_ports]
  exact ((List.pairwise_lt_finRange 6).filter _).filter _

theorem committed_queue_of_reaches {s : State} {p : Port} {g tag flags len dl : Byte} {r : RecordIndex} {q : Port}
    (h : Reaches s p g flags q) :
    ((committed p g tag flags len dl r s).port q).queue =
      insertDelivery ⟨s.handle r, (s.messageSent p g tag flags len dl).cls⟩ (s.port q).queue := by
  obtain ⟨htarget, hroom⟩ := h
  rw [committed_queue, portAfter, if_pos htarget, offered, if_neg hroom]

theorem committed_queue_of_not_reaches {s : State} {p : Port} {g tag flags len dl : Byte} {r : RecordIndex} {q : Port}
    (h : ¬ Reaches s p g flags q) :
    ((committed p g tag flags len dl r s).port q).queue = (s.port q).queue := by
  rw [committed_queue, portAfter]
  split
  · rename_i htarget
    rw [offered, if_pos (not_not.1 fun hroom => h ⟨htarget, hroom⟩)]
  · rfl

/-- A commit puts the deliveries of its record into the queues of its QUEUED targets. -/
theorem committed_settling {s : State} (hs : HandleLaw s) {r : RecordIndex} (hfree : s.message r = none) (p : Port)
    (g tag flags len dl : Byte) : Settling r (committed p g tag flags len dl r s) := by
  obtain ⟨hagrees, hopen⟩ := handleLaw_iff.1 hs
  have hmessage (k : RecordIndex) : (committed p g tag flags len dl r s).message k =
      if r = k then some (s.messageSent p g tag flags len dl) else s.message k := by
    rw [State.message, committed_record]
    split <;> rfl
  have hhandle (k : RecordIndex) : (committed p g tag flags len dl r s).handle k = s.handle k := by
    rw [State.handle, committed_record, State.handle]
    split
    · rename_i h
      subst h
      rfl
    · rfl
  have hnone (q : Port) (d : Delivery) (hd : d ∈ (s.port q).queue) : d.handle.index ≠ r :=
    hagrees.index_ne_of_queue (fun m hm => by cases hfree.symm.trans hm) hd
  refine ⟨⟨fun q => ?_, fun q => ?_, fun q d => ?_, fun q k => ?_, fun k m hk => ?_⟩, fun k m hk hm => ?_⟩
  · by_cases h : Reaches s p g flags q
    · rw [committed_queue_of_reaches h, (insertDelivery_perm _ _).nodup_iff, List.nodup_cons]
      exact ⟨fun hd => hnone q _ hd rfl, hagrees.queueNodup q⟩
    · rw [committed_queue_of_not_reaches h]
      exact hagrees.queueNodup q
  · rw [committed_held]
    exact hagrees.heldNodup q
  · by_cases hd : d.handle.index = r
    · have hexpected : QueuedAt (committed p g tag flags len dl r s) q d ↔ Reaches s p g flags q ∧
          d = ⟨s.handle r, (s.messageSent p g tag flags len dl).cls⟩ := by
        rw [QueuedAt, hmessage, if_pos hd.symm, hhandle, hd, ← messageSent_queued_iff s p g tag flags len dl q]
        simp only [Option.some.injEq, exists_eq_left']
      rw [hexpected]
      by_cases h : Reaches s p g flags q
      · rw [committed_queue_of_reaches h, (insertDelivery_perm _ _).mem_iff, List.mem_cons]
        have hnew : d ∉ (s.port q).queue := fun hmem => hnone q d hmem hd
        simp only [hnew, h, or_false, true_and]
      · rw [committed_queue_of_not_reaches h]
        exact ⟨fun hmem => absurd hd (hnone q d hmem), fun hmem => absurd hmem.1 h⟩
    · have hold : QueuedAt (committed p g tag flags len dl r s) q d ↔ QueuedAt s q d := by
        rw [QueuedAt, QueuedAt, hmessage, if_neg (Ne.symm hd), hhandle]
      rw [hold, ← hagrees.queued]
      by_cases h : Reaches s p g flags q
      · rw [committed_queue_of_reaches h, (insertDelivery_perm _ _).mem_iff, List.mem_cons]
        exact or_iff_right fun hnew => hd (congrArg (fun e => e.handle.index) hnew)
      · rw [committed_queue_of_not_reaches h]
  · rw [committed_held, hagrees.held, HeldAt, HeldAt, hmessage, hhandle]
    split
    · rename_i h
      subst h
      simp [hfree, messageSent_not_held]
    · rfl
  · rw [hmessage] at hk
    split at hk
    · cases hk
      exact ⟨fun q hq => absurd hq (messageSent_not_held s p g tag flags len dl q),
        messageSent_ascending s p g tag flags len dl⟩
    · exact hagrees.sound k m hk
  · rw [hmessage, if_neg fun h => hk (congrArg some h.symm)] at hm
    exact hopen k m (by simp) hm

/-! ## The steps -/

theorem handleLaw_reset : HandleLaw State.reset := by
  have hmessage (r : RecordIndex) : State.reset.message r = none := by rw [State.message, reset_record]
  refine handleLaw_iff.2 ⟨⟨fun p => ?_, fun p => ?_, fun p d => ?_, fun p k => ?_, fun r m hm => ?_⟩,
    fun r m _ hm => ?_⟩
  · rw [reset_port]; exact .nil
  · rw [reset_port]; exact .nil
  · simp [reset_port, CorePort.reset, QueuedAt, hmessage]
  · simp [reset_port, CorePort.reset, HeldAt, hmessage]
  · rw [hmessage] at hm; cases hm
  · rw [hmessage] at hm; cases hm

theorem mem_held_of_heldEntry {s : State} {p : Port} {index generation : Byte} {h : Handle}
    (hh : s.heldEntry p index generation = some h) : h ∈ (s.port p).held := List.mem_of_find?_eq_some hh

/-- Each change sets outcomes, queues and held lists together, and checks each record that it settled for its close. -/
theorem change_handleLaw {i : Instr} {s t : State} (h : Change i s t) (hs : HandleLaw s) : HandleLaw t := by
  cases h with
  | drains _ h => exact h.keeps (fun _ _ k => (SameRoutes.of_traffic k).handleLaw) withdraw_handleLaw hs
  | hubReset => exact handleLaw_reset
  | send _ hr => exact (committed_settling hs (message_of_freeRecord hr) _ _ _ _ _ _).closeIfSettled none
  | fetch _ hqueue hm =>
    split
    · rename_i hc
      exact fetchConfirmed_handleLaw hs hqueue hm hc
    · exact fetchUnconfirmed_handleLaw hs hqueue hm
  | ack code hh => exact ackEffect_handleLaw hs (mem_held_of_heldEntry hh) code
  | nack code hh => exact nackEffect_handleLaw hs (mem_held_of_heldEntry hh) code
  | tickTaking h c => exact (lowerRemaining_sameRoutes _ c).handleLaw ((SameRoutes.of_traffic h).handleLaw hs)
  | recordExpiry _ => exact expire_handleLaw hs _

/-- Settles O51: the law is read as agreement of queues and held lists with the records, which every change of an
outcome keeps, and the check of R91 closes the record that is left without an open target. -/
theorem everyStepKeepsHandleLaw : Obligations.EveryStepKeepsHandleLaw := fun _ =>
  step_keeps (fun _ _ h => (SameRoutes.of_traffic h).handleLaw) fun _ _ _ => change_handleLaw

end Sys2Proof.Machine.Handles

namespace Sys2Proof.Machine.Receiving

open Laws MessagePool Sending Traffic Queues Handles

/-! ## The checks of FETCH, READ, ACK, NACK and TAKE (R68, R73, R92, R116) -/

theorem sameTables_refl (s : State) : SameTables s s :=
  ⟨fun _ => rfl, fun _ => rfl, fun _ => rfl, rfl, rfl, fun _ => rfl⟩

/-- A granted command whose checks are those of the statements is refused by them in order (R171). -/
theorem takeCommand_refuses {p : Port} {req : Request} {checks : State → List (Bool × ResultCode)}
    {effect : State → CoreResult} {s : State} {stated : List (Bool × Byte)} (htakes : s.takes p req = true)
    (hsame : SameChecks (checks s) stated) :
    RefusesInOrder (takeCommand p req (fun s => judged s (checks s) (effect s)) s) (s.pfe p) p s stated := by
  intro code hcode
  rw [hsame.firstRefusal_eq] at hcode
  obtain ⟨refusal, hfail, rfl⟩ := Option.map_eq_some_iff.1 hcode
  exact ⟨_, takeCommand_taken htakes (judged_refused hfail), answeredFrom_afterTaking rfl (fun _ _ => rfl) rfl rfl,
    sameTables_afterTaking p _ (fun _ => rfl) (sameTables_refl s).2⟩

/-- A granted command that passes every check has its effect and its reply (R150, R151). -/
theorem takeCommand_passes {p : Port} {req : Request} {checks : State → List (Bool × ResultCode)}
    {effect : State → CoreResult} {s t : State} {reply : List Byte} (htakes : s.takes p req = true)
    (hpass : firstFail (checks s) = none) (heffect : effect s = .ok (t, reply)) :
    takeCommand p req (fun s => judged s (checks s) (effect s)) s = .next (afterTaking p t reply) :=
  takeCommand_taken htakes ((judged_passed hpass).trans heffect)

theorem notActive_eq (s : State) (p : Port) : s.notActive p = decide ((s.port p).portState ≠ .active) := by
  simp [State.notActive, bne, beq_eq_decide]

theorem isEmpty_eq (q : List Delivery) : q.isEmpty = decide (q = []) := by
  cases q <;> rfl

/-- A handle is named by its index and its generation (R87). -/
theorem matches_iff {h : Handle} {index generation : Byte} :
    h.matches index generation = true ↔ h.index.val = index.toNat ∧ h.generation = generation := by
  simp [Handle.matches]

theorem heldEntry_some {s : State} {p : Port} {index generation : Byte} {h : Handle}
    (hfound : s.heldEntry p index generation = some h) : h.index.val = index.toNat ∧ h.generation = generation :=
  matches_iff.1 (List.find?_some (p := fun k : Handle => k.matches index generation) hfound)

/-- No two held entries carry the handle that a command names. -/
theorem heldEntry_eq {s : State} {p : Port} {index generation : Byte} {h : Handle} (hmem : h ∈ (s.port p).held)
    (hindex : h.index.val = index.toNat) (hgeneration : h.generation = generation) :
    s.heldEntry p index generation = some h := by
  have hsome : (s.heldEntry p index generation).isSome = true :=
    List.find?_isSome.2 ⟨h, hmem, matches_iff.2 ⟨hindex, hgeneration⟩⟩
  obtain ⟨k, hk⟩ := Option.isSome_iff_exists.1 hsome
  obtain ⟨hkindex, hkgeneration⟩ := heldEntry_some hk
  have hsame : k = h := by
    cases k; cases h
    simp only [Handle.mk.injEq]
    exact ⟨Fin.ext (hkindex.trans hindex.symm), hkgeneration.trans hgeneration.symm⟩
  rw [hk, hsame]

theorem heldEntry_isNone (s : State) (p : Port) (index generation : Byte) :
    (s.heldEntry p index generation).isNone = decide (¬ s.holds p index generation) := by
  by_cases h : s.holds p index generation
  · obtain ⟨k, hmem, hindex, hgeneration⟩ := id h
    simp [h, heldEntry_eq hmem hindex hgeneration]
  · have hnone : s.heldEntry p index generation = none :=
      List.find?_eq_none.2 fun k hk hmatch => h ⟨k, hk, matches_iff.1 hmatch⟩
    simp [h, hnone]

/-- The offset that READ checks is judged by the length of the message its handle names (R73). -/
theorem heldLength_any {s : State} {p : Port} {index generation : Byte}
    (hheld : (s.heldEntry p index generation).isNone = false) (f : Nat → Bool) :
    (s.heldLength p index generation).any f =
      decide (∃ r : RecordIndex, r.val = index.toNat ∧ (s.message r).any (fun m => f m.length) = true) := by
  obtain ⟨h, hfound⟩ := Option.isSome_iff_exists.1 (Option.isNone_eq_false_iff.1 hheld)
  obtain ⟨hindex, -⟩ := heldEntry_some hfound
  have hrecord (r : RecordIndex) : r.val = index.toNat ↔ r = h.index := by rw [← hindex, Fin.ext_iff]
  rw [State.heldLength, hfound, Option.bind_some, Bool.eq_iff_iff, decide_eq_true_iff]
  simp only [hrecord, exists_eq_left]
  cases s.message h.index <;> rfl

theorem doneWith_isSome_of_mem {c : CorePort} {e : SendEntry} (he : e ∈ c.sends) (hdone : e.isDone = true) :
    (c.doneWith e.tag).isSome = true := by
  rw [CorePort.doneWith, List.findSome?_isSome_iff]
  refine ⟨e, he, ?_⟩
  cases e with
  | inTransit t h b => cases hdone
  | done t k => simp [SendEntry.tag]

theorem exists_done_of_doneWith {c : CorePort} {tag : Byte} (h : (c.doneWith tag).isSome = true) :
    ∃ e ∈ c.sends, e.isDone = true := by
  rw [CorePort.doneWith, List.findSome?_isSome_iff] at h
  obtain ⟨e, he, hsome⟩ := h
  refine ⟨e, he, ?_⟩
  cases e with
  | inTransit t h b => cases hsome
  | done t k => rfl

/-- Where the completion order names the DONE entries, TAKE finds one exactly if there is one (R114, R116). -/
theorem firstDone_isNone {c : CorePort}
    (horder : c.doneOrder.Perm ((c.sends.filter SendEntry.isDone).map SendEntry.tag)) :
    c.firstDone.isNone = decide (¬ ∃ e ∈ c.sends, e.isDone = true) := by
  have hsome : c.firstDone.isSome = true ↔ ∃ e ∈ c.sends, e.isDone = true := by
    rw [CorePort.firstDone, List.findSome?_isSome_iff]
    constructor
    · rintro ⟨tag, -, htag⟩
      exact exists_done_of_doneWith (by simpa using htag)
    · rintro ⟨e, he, hdone⟩
      refine ⟨e.tag, horder.mem_iff.2 (List.mem_map.2 ⟨e, List.mem_filter.2 ⟨he, hdone⟩, rfl⟩), ?_⟩
      simpa using doneWith_isSome_of_mem he hdone
  rw [Bool.eq_iff_iff, decide_eq_true_iff, ← hsome]
  simp

/-- Settles O26: the checks of the model are those of the statement, READ's offset where its handle is held. -/
theorem receivingCommandsRefuseInOrder : Obligations.ReceivingCommandsRefuseInOrder := by
  intro s p index generation x y
  have hanswer : SameChecks (answerChecks p index generation s)
      [(decide ((s.port p).portState ≠ .active), 0x01), (decide (¬ s.holds p index generation), 0x15)] :=
    .cons (notActive_eq s p) fun _ => .cons (heldEntry_isNone s p index generation) fun _ => trivial
  refine ⟨fun htakes => takeCommand_refuses htakes ?_, fun htakes => takeCommand_refuses htakes ?_,
    fun htakes => takeCommand_refuses htakes hanswer, fun htakes => takeCommand_refuses htakes hanswer,
    fun htakes horder => takeCommand_refuses htakes ?_⟩
  · exact .cons (notActive_eq s p) fun _ => .cons (isEmpty_eq _) fun _ =>
      .cons rfl fun _ => trivial
  · exact .cons (notActive_eq s p) fun _ => .cons (beq_eq_decide _ _) fun _ =>
      .cons (heldEntry_isNone s p index generation) fun hheld => .cons (heldLength_any hheld _) fun _ => trivial
  · exact .cons (notActive_eq s p) fun _ => .cons (firstDone_isNone horder) fun _ => trivial

/-! ## READ (R74) -/

/-- No check of R73 fails for a held message, a count of 1 or more and an offset within the payload. -/
theorem readChecks_pass {s : State} {p : Port} {h : Handle} {index generation offset count : Byte} {m : Message}
    (hactive : (s.port p).portState = .active) (hheld : s.heldEntry p index generation = some h)
    (hm : s.message h.index = some m) (hcount : 1 ≤ count.toNat) (hoffset : offset.toNat < m.length) :
    firstFail (readChecks p index generation offset count s) = none := by
  refine firstFail_none.2 ?_
  simp only [readChecks, List.forall_mem_cons, State.heldLength, hheld, Option.bind_some, hm, Option.map_some]
  exact ⟨by simp [State.notActive, hactive], beq_eq_false_iff_ne.2 (Nat.one_le_iff_ne_zero.1 hcount), rfl,
    by simpa using hoffset, by simp⟩

/-- Settles O41: the named handle is held once, every check passes, and the effect is the reply alone. -/
theorem readReturnsPayload : Obligations.ReadReturnsPayload := by
  intro s p h index generation offset count m htakes hactive hmem hindex hgeneration hm hcount hoffset
  have hheld := heldEntry_eq hmem hindex hgeneration
  have heffect : readEffect p index generation offset count s = .ok (s, readReply m offset count s.pool) := by
    rw [readEffect, hheld, Option.bind_some, hm]
  have hpass := readChecks_pass hactive hheld hm hcount hoffset
  exact ⟨_, takeCommand_passes (checks := readChecks p index generation offset count) htakes hpass heffect,
    answeredFrom_afterTaking rfl (fun _ _ => rfl) rfl rfl,
    sameTables_afterTaking p _ (fun _ => rfl) (sameTables_refl s).2⟩

/-! ## The close of a record, also where it frees its group (R5, R103) -/

/-- The close brings the group to FREE exactly where it is CLOSING and this was its last message (R5). -/
theorem groupFrees_iff {s : State} {m : Message} :
    groupFrees s m = true ↔ (s.group m.group).state = .closing ∧ (s.group m.group).inFlight - 1 = 0 := by
  simp only [groupFrees, Bool.and_eq_true, beq_iff_eq, decide_eq_true_iff]
  exact and_congr_right fun _ => by omega

/-- The group's entry once the charge of a message is taken back. -/
def uncharged (m : Message) (e : Group) : Group :=
  { e with used := e.used - m.chain.length, inFlight := e.inFlight - 1 }

theorem releaseCharge_eq (s : State) (m : Message) :
    s.releaseCharge m =
      if groupFrees s m = true then (s.modGroup m.group (uncharged m)).freeGroup m.group none
      else s.modGroup m.group (uncharged m) := by
  have hsame : ((s.modGroup m.group (uncharged m)).group m.group).state = .closing ∧
      ((s.modGroup m.group (uncharged m)).group m.group).inFlight = 0 ↔ groupFrees s m = true := by
    rw [modGroup_group_same, groupFrees_iff]
    rfl
  rw [State.releaseCharge]
  change (s.modGroup m.group (uncharged m)).freeIfDone m.group none = _
  rw [State.freeIfDone]
  exact if_congr hsame rfl rfl

/-- A port's tables after a roster notice that reaches it or not (R8). -/
def told (b : Bool) (c : CorePort) : CorePort := { c with roster := c.roster || b }

theorem told_false (c : CorePort) : told false c = c := by rw [told, Bool.or_false]

theorem releaseCharge_port (s : State) (m : Message) (q : Port) :
    (s.releaseCharge m).port q = told (groupFrees s m && PortSet.has (s.group m.group).members q) (s.port q) := by
  rw [releaseCharge_eq]
  split
  · rename_i h
    rw [State.freeGroup, modGroup_port, notifyRoster_port, h, modGroup_group_same]
    cases hmember : PortSet.has (s.group m.group).members q <;> simp [uncharged, hmember, told]
  · rename_i h
    rw [Bool.not_eq_true] at h
    rw [modGroup_port, h, Bool.false_and, told_false]

theorem releaseCharge_group (s : State) (m : Message) (g : GroupNo) :
    (s.releaseCharge m).group g =
      if g ≠ m.group then s.group g
      else if groupFrees s m = true then Group.freed else uncharged m (s.group g) := by
  rw [releaseCharge_eq]
  by_cases hg : g = m.group
  · subst hg
    rw [if_neg (not_not_intro rfl)]
    split
    · rw [State.freeGroup, modGroup_group_same]
    · rw [modGroup_group_same]
  · rw [if_pos hg]
    split
    · simp only [State.freeGroup, State.notifyRoster, modGroup_group_ne _ _ _ _ (Ne.symm hg), mapPorts_group,
        setReserved_group]
    · rw [modGroup_group_ne _ _ _ _ (Ne.symm hg)]

theorem releaseCharge_reservedTotal (s : State) (m : Message) :
    (s.releaseCharge m).reservedTotal =
      if groupFrees s m = true then s.reservedTotal - (s.group m.group).quota else s.reservedTotal := by
  rw [releaseCharge_eq]
  split
  · simp [State.freeGroup, State.notifyRoster, uncharged]
  · rfl

theorem groupFrees_congr {s t : State} {m : Message} (h : ∀ g, t.group g = s.group g) :
    groupFrees t m = groupFrees s m := by rw [groupFrees, groupFrees, h]

/-- What the close leaves of a port: its send-list entry, then the roster notice of the group's FREE transition. -/
theorem closeRecord_port_told {s : State} {r : RecordIndex} {m : Message} (hm : s.message r = some m) (q : Port) :
    (s.closeRecord none r).port q =
      told (groupFrees s m && PortSet.has (s.group m.group).members q) ((s.closeEntry none r m).port q) := by
  have hgroup (g : GroupNo) : ((s.closeEntry none r m).freeChain m.chain).group g = s.group g := by
    rw [State.freeChain, setFreeList_group, closeEntry_group]
  rw [closeRecord_some hm, modRecord_port, releaseCharge_port, groupFrees_congr hgroup, hgroup]
  rfl

/-- The close of a record that tracks `m`, in the four steps of R103. -/
theorem closeRecord_closes {s : State} {r : RecordIndex} {m : Message} (hm : s.message r = some m) :
    RecordCloses r m s (s.closeRecord none r) := by
  have hgroup (g : GroupNo) : ((s.closeEntry none r m).freeChain m.chain).group g = s.group g := by
    rw [State.freeChain, setFreeList_group, closeEntry_group]
  refine ⟨fun k => ?_, closeRecord_freeList hm none, fun g => ?_, ?_, fun q => ⟨?_, ?_, ?_⟩⟩
  · rw [closeRecord_record hm]
    by_cases h : r = k
    · rw [if_pos h, if_pos h.symm]; rfl
    · rw [if_neg h, if_neg (Ne.symm h)]
  · rw [closeRecord_some hm, modRecord_group, releaseCharge_group, groupFrees_congr hgroup, hgroup]
    by_cases h : g = m.group
    · subst h; rfl
    · rw [if_pos h, if_pos h]
  · rw [closeRecord_some hm, modRecord_reservedTotal, releaseCharge_reservedTotal, groupFrees_congr hgroup, hgroup,
      State.freeChain, setFreeList_reservedTotal, closeEntry_reservedTotal]
  · rw [closeRecord_port_told hm, closeEntry_port]
    split
    · split <;> rfl
    · rfl
  · rw [closeRecord_port_told hm, closeEntry_port, completionBy_eq_completionOf]
    by_cases h : m.sender = q
    · rw [if_pos h, if_neg (not_not_intro h.symm)]
      split <;> rfl
    · rw [if_neg h, if_pos (Ne.symm h)]
      rfl
  · rw [closeRecord_port_told hm, closeEntry_port]
    by_cases h : m.sender = q
    · rw [if_pos h]
      by_cases hc : m.confirm = true
      · rw [if_pos hc, if_pos ⟨h.symm, hc⟩]; rfl
      · rw [if_neg hc, if_neg fun hq => hc hq.2]; rfl
    · rw [if_neg h, if_neg fun hq => h hq.1.symm]; rfl

/-- The check of R91 touches no queue, no held list, no missed latch and no port state. -/
theorem closeIfSettled_frame (s : State) (r : RecordIndex) (q : Port) :
    SamePlace s (s.closeIfSettled none r) q ∧
      ((s.closeIfSettled none r).port q).queue = (s.port q).queue ∧
      ((s.closeIfSettled none r).port q).held = (s.port q).held := by
  obtain h | ⟨m, hm, -, h⟩ := closeIfSettled_cases s none r <;> rw [h]
  · exact ⟨⟨rfl, rfl⟩, rfl, rfl⟩
  · rw [SamePlace, closeRecord_port_told hm, closeEntry_port]
    split
    · split <;> exact ⟨⟨rfl, rfl⟩, rfl, rfl⟩
    · exact ⟨⟨rfl, rfl⟩, rfl, rfl⟩

/-! ## The fate of a record, from the state before its message was changed (R91, R103) -/

theorem RecordStays.message {r : RecordIndex} {m : Message} {s t : State} (h : RecordStays r m s t) :
    t.message r = some m := by
  rw [State.message, h.1, if_pos rfl]

theorem RecordStays.handle {r : RecordIndex} {m : Message} {s t : State} (h : RecordStays r m s t) :
    t.handle r = s.handle r := by
  rw [State.handle, h.1, if_pos rfl, State.handle]

/-- A record whose message was changed first closes as from the state before. -/
theorem recordCloses_of_stays {r : RecordIndex} {m : Message} {s t u : State} (h : RecordStays r m s t)
    (k : RecordCloses r m t u) : RecordCloses r m s u := by
  have hhandle := RecordStays.handle h
  obtain ⟨hrecord, hgroup, hreserved, hfree, hports⟩ := h
  obtain ⟨hrecord', hfree', hgroup', hreserved', hports'⟩ := k
  have hfrees : groupFrees t m = groupFrees s m := groupFrees_congr hgroup
  refine ⟨fun k => ?_, by rw [hfree', hfree], fun g => ?_, ?_, fun q => ?_⟩
  · rw [hrecord', hrecord, hrecord, if_pos rfl]
    split <;> rfl
  · rw [hgroup', hfrees, hgroup]
  · rw [hreserved', hfrees, hreserved, hgroup]
  · obtain ⟨hroster, hsends, hdone⟩ := hports' q
    obtain ⟨hsends', hdone', hroster'⟩ := hports q
    rw [hroster, hsends, hdone, hfrees, hroster', hsends', hdone', hgroup, hhandle]
    exact ⟨rfl, rfl, rfl⟩

/-- The check of R91, where record `r` now tracks `m`. -/
theorem closeIfSettled_settles {r : RecordIndex} {m : Message} {s t : State} (h : RecordStays r m s t) :
    Settles r m s (t.closeIfSettled none r) := by
  have hm := RecordStays.message h
  refine ⟨fun hopen => ?_, fun hclosed => ?_⟩
  · rwa [closeIfSettled_open hm hopen]
  · rw [closeIfSettled_settled hm hclosed]
    exact recordCloses_of_stays h (closeRecord_closes hm)

/-- Tables that are the same show the same lists and latches. -/
theorem SamePort.fields {s t : State} {q : Port} (h : SamePort s t q) :
    (t.port q).sends = (s.port q).sends ∧ (t.port q).doneOrder = (s.port q).doneOrder ∧
      (t.port q).roster = (s.port q).roster := by
  unfold SamePort at h
  have hsends := congrArg CorePort.sends h
  have hdone := congrArg CorePort.doneOrder h
  have hroster := congrArg CorePort.roster h
  exact ⟨hsends, hdone, hroster⟩

/-- Tables that are the same show the same port state, missed latch, queue and held list. -/
theorem SamePort.lists {s t : State} {q : Port} (h : SamePort s t q) :
    (t.port q).portState = (s.port q).portState ∧ (t.port q).missed = (s.port q).missed ∧
      (t.port q).queue = (s.port q).queue ∧ (t.port q).held = (s.port q).held := by
  unfold SamePort at h
  have hstate := congrArg CorePort.portState h
  have hmissed := congrArg CorePort.missed h
  have hqueue := congrArg CorePort.queue h
  have hheld := congrArg CorePort.held h
  exact ⟨hstate, hmissed, hqueue, hheld⟩

theorem recordStays_of_sameTables {r : RecordIndex} {m : Message} {s t u : State} (h : RecordStays r m s t)
    (k : SameTables t u) : RecordStays r m s u := by
  obtain ⟨hrecord, hgroup, hreserved, hfree, hports⟩ := h
  obtain ⟨hport, hgroup', hrecord', hreserved', hfree', -⟩ := k
  refine ⟨fun k => (hrecord' k).trans (hrecord k), fun g => (hgroup' g).trans (hgroup g), hreserved'.trans hreserved,
    hfree'.trans hfree, fun q => ?_⟩
  obtain ⟨hsends', hdone', hroster'⟩ := SamePort.fields (hport q)
  rw [hsends', hdone', hroster']
  exact hports q

theorem recordCloses_of_sameTables {r : RecordIndex} {m : Message} {s t u : State} (h : RecordCloses r m s t)
    (k : SameTables t u) : RecordCloses r m s u := by
  obtain ⟨hrecord, hfree, hgroup, hreserved, hports⟩ := h
  obtain ⟨hport, hgroup', hrecord', hreserved', hfree', -⟩ := k
  refine ⟨fun k => (hrecord' k).trans (hrecord k), hfree'.trans hfree, fun g => (hgroup' g).trans (hgroup g),
    hreserved'.trans hreserved, fun q => ?_⟩
  obtain ⟨hsends', hdone', hroster'⟩ := SamePort.fields (hport q)
  rw [hsends', hdone', hroster']
  exact hports q

theorem settles_of_sameTables {r : RecordIndex} {m : Message} {s t u : State} (h : Settles r m s t)
    (k : SameTables t u) : Settles r m s u :=
  ⟨fun hopen => recordStays_of_sameTables (h.1 hopen) k, fun hclosed => recordCloses_of_sameTables (h.2 hclosed) k⟩

theorem afterTaking_sameTables (p : Port) (t : State) (reply : List Byte) : SameTables t (afterTaking p t reply) :=
  sameTables_afterTaking p reply (fun _ => rfl) (sameTables_refl t).2

theorem modMessage_record (s : State) (r : RecordIndex) (f : Message → Message) (k : RecordIndex) :
    (s.modMessage r f).record k =
      if r = k then { s.record r with message := (s.message r).map f } else s.record k := by
  rw [State.modMessage, modRecord_record]
  rfl

/-! ## FETCH (R70, R71) -/

/-- No check of R68 fails: a queue with a head, and room in the held list for a confirmed one. -/
theorem fetchChecks_pass {s : State} {p : Port} {d : Delivery} {rest : List Delivery} {m : Message}
    (hactive : (s.port p).portState = .active) (hqueue : (s.port p).queue = d :: rest)
    (hm : s.message d.handle.index = some m) (hroom : m.confirm = true → (s.port p).held.length < 4) :
    firstFail (fetchChecks p s) = none := by
  refine firstFail_none.2 ?_
  simp only [fetchChecks, List.forall_mem_cons, State.headMessage, hqueue, List.head?_cons, Option.bind_some, hm]
  exact ⟨by simp [State.notActive, hactive], rfl, by simpa [Config.heldLimit] using hroom, by simp⟩

/-- The message flags byte, its two bits added (10 section 10.5). -/
theorem messageFlagsByte_eq (m : Message) :
    messageFlagsByte m = (if m.confirm then 0x01 else 0x00) + (if m.cls = .urgent then 0x02 else 0x00) := by
  unfold messageFlagsByte
  cases m.confirm <;> cases m.cls <;> rfl

theorem fetchReply_eq (s : State) (h : Handle) (m : Message) : fetchReply h m s.pool = fetchedReply s h m := by
  simp only [fetchReply, messageFlagsByte_eq, twoBytes]
  rfl

/-- Where no store and no send list, completion order or roster latch has changed, setting the outcome of a target
changes the record's message alone. -/
theorem setTarget_recordStays {s u : State} {r : RecordIndex} {m : Message} (hm : s.message r = some m)
    (hstores : SameStores s u) (hports : ∀ q, (u.port q).sends = (s.port q).sends ∧
      (u.port q).doneOrder = (s.port q).doneOrder ∧ (u.port q).roster = (s.port q).roster) (p : Port)
    (o : TargetOutcome) (code : Byte) : RecordStays r (m.withOutcome p o code) s (u.setTarget r p o code) := by
  obtain ⟨hgroup, hrecord, hreserved, hfree, -⟩ := hstores
  refine ⟨fun k => ?_, hgroup, hreserved, hfree, hports⟩
  have hmessage : u.message r = some m := by rw [State.message, hrecord]; exact hm
  rw [State.setTarget, modMessage_record, hrecord, hrecord, hmessage, Option.map_some, withOutcome_eq_setTarget]
  by_cases h : r = k
  · rw [if_pos h, if_pos h.symm]
  · rw [if_neg h, if_neg (Ne.symm h)]

theorem dropHead_port (s : State) (p q : Port) :
    (s.dropHead p).port q = if p = q then { s.port q with queue := (s.port q).queue.tail } else s.port q := by
  rw [State.dropHead, modPort_port]
  split
  · rename_i h; subst h; rfl
  · rfl

theorem fetchConfirmed_recordStays {s : State} {p : Port} {h : Handle} {m : Message} (hm : s.message h.index = some m) :
    RecordStays h.index (m.withOutcome p .held 0) s (fetchConfirmed p h s) := by
  unfold fetchConfirmed
  refine setTarget_recordStays hm ?_ (fun q => ?_) p .held 0
  · exact ⟨fun _ => rfl, fun _ => rfl, rfl, rfl, fun _ => rfl⟩
  have hport := fetchConfirmed_port p h s q
  rw [fetchConfirmed, State.setTarget, modMessage_port] at hport
  rw [hport]
  split <;> exact ⟨rfl, rfl, rfl⟩

theorem fetchUnconfirmed_settles {s : State} {p : Port} {h : Handle} {m : Message} (hm : s.message h.index = some m) :
    Settles h.index (m.withOutcome p .fetched 0) s (fetchUnconfirmed p h s) := by
  refine closeIfSettled_settles (setTarget_recordStays hm ?_ (fun q => ?_) p .fetched 0)
  · exact ⟨fun _ => rfl, fun _ => rfl, rfl, rfl, fun _ => rfl⟩
  rw [dropHead_port]
  split <;> exact ⟨rfl, rfl, rfl⟩

/-- The tables of FETCH at a port's queue and lists (R70). -/
theorem fetch_lists {s : State} {p : Port} {h : Handle} {m : Message} (q : Port) :
    SamePlace s (if m.confirm then fetchConfirmed p h s else fetchUnconfirmed p h s) q ∧
      ((if m.confirm then fetchConfirmed p h s else fetchUnconfirmed p h s).port q).queue =
        (if q = p then (s.port q).queue.tail else (s.port q).queue) ∧
      ((if m.confirm then fetchConfirmed p h s else fetchUnconfirmed p h s).port q).held =
        (if q = p ∧ m.confirm = true then (s.port q).held ++ [h] else (s.port q).held) := by
  cases hc : m.confirm with
  | true =>
    rw [if_pos rfl, SamePlace, fetchConfirmed_port]
    by_cases hq : q = p
    · subst hq; simp
    · simp [hq, Ne.symm hq]
  | false =>
    obtain ⟨⟨hstate, hmissed⟩, hqueue, hheld⟩ := closeIfSettled_frame
      ((s.dropHead p).setTarget h.index p .fetched 0) h.index q
    rw [if_neg Bool.false_ne_true, SamePlace, fetchUnconfirmed, hstate, hmissed, hqueue, hheld, State.setTarget,
      modMessage_port, dropHead_port]
    by_cases hq : q = p
    · subst hq; simp
    · simp [hq, Ne.symm hq]

theorem fetch_coreOnly (s : State) (p : Port) (h : Handle) (m : Message) :
    CoreOnly s (if m.confirm then fetchConfirmed p h s else fetchUnconfirmed p h s) := by
  split
  · exact fetchConfirmed_coreOnly p h s
  · exact fetchUnconfirmed_coreOnly p h s

/-- Settles O40: every check passes; a confirmed head becomes HELD and its record stays, an unconfirmed one becomes
FETCHED and its record is checked for its close. -/
theorem fetchGivesHeadMessage : Obligations.FetchGivesHeadMessage := by
  intro s p d rest m htakes hactive hqueue hm hroom
  have heffect : fetchEffect p s = .ok (if m.confirm then fetchConfirmed p d.handle s else
      fetchUnconfirmed p d.handle s, fetchedReply s d.handle m) := by
    simp only [fetchEffect, hqueue, hm, fetchReply_eq]
  have hcore := fetch_coreOnly s p d.handle m
  have htables := afterTaking_sameTables p (if m.confirm then fetchConfirmed p d.handle s else
    fetchUnconfirmed p d.handle s) (fetchedReply s d.handle m)
  have hpass := fetchChecks_pass hactive hqueue hm hroom
  refine ⟨_, takeCommand_passes (checks := fetchChecks p) htakes hpass heffect,
    answeredFrom_afterTaking (hcore.pfe p) (fun q _ => hcore.pfe q) hcore.tickCount hcore.pending, fun a => ?_,
    fun hc => recordStays_of_sameTables ?_ htables, fun hc => settles_of_sameTables ?_ htables, fun q => ?_⟩
  · rw [afterTaking_pool, hcore.pool]
  · rw [if_pos hc]
    exact fetchConfirmed_recordStays hm
  · rw [if_neg (by simp [hc])]
    exact fetchUnconfirmed_settles hm
  · obtain ⟨hplace, hqueue', hheld⟩ := fetch_lists (s := s) (p := p) (h := d.handle) (m := m) q
    rw [SamePlace, afterTaking_port]
    refine ⟨hplace, hqueue'.trans ?_, hheld⟩
    split
    · rename_i hq
      rw [hq, hqueue, List.tail_cons]
    · rfl

end Sys2Proof.Machine.Receiving

namespace Sys2Proof.Machine.Expiry

open Laws MessagePool Sending Traffic Queues Handles Receiving

/-! ## One target made final (R76, R95, R100) -/

/-- A target entry, made final with reply code 0 where it is open and of one of these ports. -/
def finalTarget (qs : List Port) (o : TargetOutcome) (x : Target) : Target :=
  if x.port ∈ qs ∧ x.outcome.isOpen = true then { x with outcome := o, code := 0 } else x

theorem finalTarget_port (qs : List Port) (o : TargetOutcome) (x : Target) : (finalTarget qs o x).port = x.port := by
  unfold finalTarget
  split <;> rfl

theorem finalTarget_of_not_mem {qs : List Port} {x : Target} (h : x.port ∉ qs) (o : TargetOutcome) :
    finalTarget qs o x = x := if_neg fun hx => h hx.1

/-- One port after another, an open target becomes final once. -/
theorem finalTarget_cons (q : Port) (qs : List Port) {o : TargetOutcome} (ho : o.isOpen = false) (x : Target) :
    finalTarget qs o (finalTarget [q] o x) = finalTarget (q :: qs) o x := by
  by_cases hx : x.port = q ∧ x.outcome.isOpen = true
  · simp [finalTarget, hx, ho]
  · rw [finalTarget.eq_1 [q], if_neg (by simpa using hx)]
    refine if_congr ⟨fun h => ⟨List.mem_cons_of_mem q h.1, h.2⟩, fun h => ⟨?_, h.2⟩⟩ rfl rfl
    exact (List.mem_cons.1 h.1).resolve_left fun hq => hx ⟨hq, h.2⟩

/-- The message with the open targets among these ports made final, with reply code 0. -/
def settledAt (qs : List Port) (o : TargetOutcome) (m : Message) : Message :=
  { m with targets := m.targets.map (finalTarget qs o) }

theorem settledAt_cons (q : Port) (qs : List Port) {o : TargetOutcome} (ho : o.isOpen = false) (m : Message) :
    settledAt qs o (settledAt [q] o m) = settledAt (q :: qs) o m := by
  have hcompose : finalTarget qs o ∘ finalTarget [q] o = finalTarget (q :: qs) o := funext (finalTarget_cons q qs ho)
  simp only [settledAt, List.map_map, hcompose]

/-- The targets of other ports keep their outcomes. -/
theorem settledAt_outcomeOf {qs : List Port} {k : Port} (hk : k ∉ qs) (o : TargetOutcome) (m : Message) :
    (settledAt qs o m).outcomeOf k = m.outcomeOf k := by
  simp only [Message.outcomeOf, settledAt]
  induction m.targets with
  | nil => rfl
  | cons x xs ih =>
    rw [List.map_cons, List.find?_cons, List.find?_cons, finalTarget_port]
    by_cases hx : x.port = k
    · subst hx
      rw [finalTarget_of_not_mem hk, beq_self_eq_true]
    · rw [beq_eq_false_iff_ne.2 hx]
      exact ih

theorem settledAt_allPorts (o : TargetOutcome) (m : Message) : settledAt allPorts o m = m.withOpenSettled o := by
  simp [settledAt, finalTarget, Message.withOpenSettled]

theorem withOpenSettled_hasOpenTarget (m : Message) {o : TargetOutcome} (ho : o.isOpen = false) :
    (m.withOpenSettled o).hasOpenTarget = false := by
  refine List.any_eq_false.2 fun x hx => ?_
  obtain ⟨y, -, rfl⟩ := List.mem_map.1 hx
  cases hy : y.outcome.isOpen <;> simp [hy, ho]

/-- Of an ascending target list, the entry of an open target is the one that is set. -/
theorem setTarget_eq_settledAt {m : Message} (hm : Ascending m) {q : Port}
    (h : m.outcomeOf q = some .queued ∨ m.outcomeOf q = some .held) (o : TargetOutcome) :
    m.setTarget q o 0 = settledAt [q] o m := by
  simp only [Message.setTarget, settledAt]
  congr 1
  refine List.map_congr_left fun x hx => ?_
  have hopen (hq : x.port = q) : x.outcome.isOpen = true := by
    have houtcome := outcomeOf_of_mem hm hx
    rw [hq] at houtcome
    rw [houtcome, Option.some.injEq, Option.some.injEq] at h
    exact isOpen_iff.2 h
  exact if_congr ⟨fun hq => ⟨List.mem_singleton.2 hq, hopen hq⟩, fun hq => List.mem_singleton.1 hq.1⟩ rfl rfl

theorem settledAt_eq_self {m : Message} (hm : Ascending m) {q : Port}
    (h : m.outcomeOf q ≠ some .queued ∧ m.outcomeOf q ≠ some .held) (o : TargetOutcome) : settledAt [q] o m = m := by
  have hsame : m.targets.map (finalTarget [q] o) = m.targets := by
    refine (List.map_congr_left fun x hx => if_neg fun hopen => ?_).trans (List.map_id _)
    have houtcome := outcomeOf_of_mem hm hx
    rw [List.mem_singleton.1 hopen.1] at houtcome
    rw [houtcome, ne_eq, ne_eq, Option.some.injEq, Option.some.injEq] at h
    exact (isOpen_iff.1 hopen.2).elim h.1 h.2
  rw [settledAt, hsame]

theorem setTarget_record (s : State) (r : RecordIndex) (p : Port) (o : TargetOutcome) (code : Byte)
    (k : RecordIndex) :
    (s.setTarget r p o code).record k =
      if r = k then { s.record r with message := (s.message r).map fun m => m.setTarget p o code }
      else s.record k := modMessage_record s r _ k

/-- Settling a target sets its entry in the record where it is open, and nothing else of the records. -/
theorem settle_record {s : State} (hs : Agrees s) (r : RecordIndex) (q : Port) (o : TargetOutcome) (k : RecordIndex) :
    (s.settle r q o 0).record k =
      if r = k then { s.record r with message := (s.message r).map (settledAt [q] o) } else s.record k := by
  by_cases hopen : ∃ m, s.message r = some m ∧ (m.outcomeOf q = some .queued ∨ m.outcomeOf q = some .held)
  · obtain ⟨m, hm, hopen⟩ := hopen
    have hset : (s.settle r q o 0).record k =
        if r = k then { s.record r with message := (s.message r).map fun m => m.setTarget q o 0 }
        else s.record k := by
      rcases hopen with h | h
      · rw [settle_of_queued hm h]; exact setTarget_record _ r q o 0 k
      · rw [settle_of_held hm h]; exact setTarget_record _ r q o 0 k
    rw [hset, hm, Option.map_some, Option.map_some, setTarget_eq_settledAt (hs.sound r m hm).ascending hopen]
  · push Not at hopen
    have hsame : (s.message r).map (settledAt [q] o) = s.message r := by
      cases hm : s.message r with
      | none => rfl
      | some m => rw [Option.map_some, settledAt_eq_self (hs.sound r m hm).ascending (hopen m hm)]
    rw [settle_of_not_open hopen, hsame]
    split
    · rename_i h; subst h; rfl
    · rfl

/-- Settling a target reaches no group, no total and no free block. -/
theorem settle_stores (s : State) (r : RecordIndex) (p : Port) (o : TargetOutcome) (code : Byte) :
    (∀ g, (s.settle r p o code).group g = s.group g) ∧
      (s.settle r p o code).reservedTotal = s.reservedTotal ∧ (s.settle r p o code).freeList = s.freeList := by
  rcases settle_cases s r p o code with h | h | h <;> rw [h] <;> exact ⟨fun _ => rfl, rfl, rfl⟩

/-! ## The open targets of a record expire one after another (R81, R100) -/

/-- The expiry of record `r` sets port q's missed latch: q is a QUEUED target of an unconfirmed message (R81). -/
def missesAt (s : State) (r : RecordIndex) (q : Port) : Bool :=
  (s.message r).any fun m => !m.confirm && m.outcomeOf q == some .queued

/-- Port q's tables once its target of record `r` has expired. -/
def expiredPort (s : State) (r : RecordIndex) (q : Port) : CorePort :=
  { ridOf (s.handle r) (s.port q) with missed := (s.port q).missed || missesAt s r q }

/-- What the expiry of the targets among these ports leaves (R81, R100). -/
structure ExpiredAt (r : RecordIndex) (qs : List Port) (s t : State) : Prop where
  agrees        : Agrees t
  port          : ∀ q, t.port q = if q ∈ qs then expiredPort s r q else s.port q
  record        : ∀ k, t.record k =
    if r = k then { s.record r with message := (s.message r).map (settledAt qs .expired) } else s.record k
  group         : ∀ g, t.group g = s.group g
  reservedTotal : t.reservedTotal = s.reservedTotal
  freeList      : t.freeList = s.freeList

theorem missIfQueued_port (s : State) (r : RecordIndex) (q k : Port) :
    (s.missIfQueued r q).port k =
      if q = k then { s.port k with missed := (s.port k).missed || missesAt s r k } else s.port k := by
  rw [State.missIfQueued]
  by_cases hq : q = k
  · subst hq
    cases hmiss : missesAt s r q <;> rw [missesAt] at hmiss <;> simp [hmiss]
  · rw [if_neg hq]
    split
    · exact modPort_port_ne _ _ _ _ hq
    · rfl

/-- One target of the record expires. -/
theorem expireOne {s : State} (hs : Agrees s) (r : RecordIndex) (q : Port) :
    ExpiredAt r [q] s ((s.missIfQueued r q).settle r q .expired 0) := by
  have hmissed := missIfQueued_sameTraffic s r q
  have hagrees := (SameRoutes.of_traffic hmissed).agrees hs
  obtain ⟨hgroup, hreserved, hfree⟩ := settle_stores (s.missIfQueued r q) r q .expired 0
  have hstores : (∀ g, (s.missIfQueued r q).group g = s.group g) ∧
      (s.missIfQueued r q).reservedTotal = s.reservedTotal ∧ (s.missIfQueued r q).freeList = s.freeList := by
    unfold State.missIfQueued
    split <;> exact ⟨fun _ => rfl, rfl, rfl⟩
  obtain ⟨hgroup', hreserved', hfree'⟩ := hstores
  refine ⟨hagrees.settle r q rfl 0, fun k => ?_, fun k => ?_, fun g => (hgroup g).trans (hgroup' g),
    hreserved.trans hreserved', hfree.trans hfree'⟩
  · rw [hagrees.settle_port, hmissed.handle, missIfQueued_port]
    by_cases hk : q = k
    · rw [if_pos hk, if_pos hk, if_pos (List.mem_singleton.2 hk.symm)]; rfl
    · rw [if_neg hk, if_neg hk, if_neg fun h => hk (List.mem_singleton.1 h).symm]
  · rw [settle_record hagrees, hmissed.record, hmissed.record, hmissed.message]

/-- The message changes at one port only, so the others' expiries are as they were. -/
theorem ExpiredAt.expiredPort_eq {s t : State} {r : RecordIndex} {q k : Port} (h : ExpiredAt r [q] s t) (hk : k ≠ q) :
    expiredPort t r k = expiredPort s r k := by
  have hhandle : t.handle r = s.handle r := by rw [State.handle, h.record, if_pos rfl, State.handle]
  have hmessage : t.message r = (s.message r).map (settledAt [q] .expired) := by
    rw [State.message, h.record, if_pos rfl]
  have hother : k ∉ [q] := fun hq => hk (List.mem_singleton.1 hq)
  have hmisses : missesAt t r k = missesAt s r k := by
    rw [missesAt, missesAt, hmessage, Option.any_map]
    refine congrArg (fun f => (s.message r).any f) (funext fun m => ?_)
    rw [settledAt_outcomeOf hother]
    rfl
  rw [expiredPort, expiredPort, hhandle, hmisses, h.port, if_neg fun hq => hk (List.mem_singleton.1 hq)]

/-- The targets expire in the order of a list of ports, each from its port's tables as they were. -/
theorem foldl_expires (r : RecordIndex) {qs : List Port} (hqs : qs.Nodup) {s : State} (hs : Agrees s) :
    ExpiredAt r qs s (qs.foldl (fun t q => (t.missIfQueued r q).settle r q .expired 0) s) := by
  induction qs generalizing s with
  | nil =>
    have hnone : finalTarget [] .expired = id := funext fun _ => finalTarget_of_not_mem List.not_mem_nil .expired
    have hid : settledAt [] .expired = id := funext fun m => by rw [settledAt, hnone, List.map_id]; rfl
    refine ⟨hs, fun _ => by simp, fun k => ?_, fun _ => rfl, rfl, rfl⟩
    rw [hid, Option.map_id]
    split
    · rename_i h; subst h; rfl
    · rfl
  | cons q qs ih =>
    obtain ⟨hq, hqs⟩ := List.nodup_cons.1 hqs
    have hone := expireOne hs r q
    obtain ⟨hagrees, hport, hrecord, hgroup, hreserved, hfree⟩ := ih hqs hone.agrees
    refine ⟨hagrees, fun k => ?_, fun k => ?_, fun g => (hgroup g).trans (hone.group g),
      hreserved.trans hone.reservedTotal, hfree.trans hone.freeList⟩
    · rw [List.foldl_cons, hport]
      by_cases hk : k = q
      · subst hk
        rw [if_neg hq, hone.port, if_pos (List.mem_singleton_self k), if_pos List.mem_cons_self]
      · rw [hone.expiredPort_eq hk, hone.port, if_neg fun h => hk (List.mem_singleton.1 h)]
        exact if_congr (by simp [hk]) rfl rfl
    · have hcompose : settledAt qs .expired ∘ settledAt [q] .expired = settledAt (q :: qs) .expired :=
        funext (settledAt_cons q qs rfl)
      rw [List.foldl_cons, hrecord, State.message, hone.record, hone.record]
      by_cases hk : r = k
      · rw [if_pos hk, if_pos hk, if_pos rfl, Option.map_map, hcompose]
      · rw [if_neg hk, if_neg hk, if_neg hk]

theorem expireTargets_expired {s : State} (hs : Agrees s) (r : RecordIndex) :
    ExpiredAt r allPorts s (s.expireTargets r) :=
  foldl_expires r (List.nodup_finRange 6) hs

/-! ## The expiry of a record (R91, R100, R101, R103) -/

/-- The record now tracks its message with every open target EXPIRED. -/
theorem expireTargets_recordStays {s : State} (hs : Agrees s) {r : RecordIndex} {m : Message}
    (hm : s.message r = some m) : RecordStays r (m.withOpenSettled .expired) s (s.expireTargets r) := by
  have h := expireTargets_expired hs r
  refine ⟨fun k => ?_, h.group, h.reservedTotal, h.freeList, fun q => ?_⟩
  · rw [h.record, hm, Option.map_some, settledAt_allPorts]
    by_cases hk : r = k
    · rw [if_pos hk, if_pos hk.symm]
    · rw [if_neg hk, if_neg (Ne.symm hk)]
  · rw [h.port]
    split <;> exact ⟨rfl, rfl, rfl⟩

theorem expire_closes {s : State} (hs : Agrees s) {r : RecordIndex} {m : Message} (hm : s.message r = some m) :
    RecordCloses r (m.withOpenSettled .expired) s (s.expire r) := by
  obtain ⟨-, hcloses⟩ := closeIfSettled_settles (expireTargets_recordStays hs hm)
  exact hcloses (withOpenSettled_hasOpenTarget m rfl)

/-- A port is a QUEUED target of an ascending target list as the statements say it. -/
theorem missesAt_eq {s : State} (hs : Agrees s) {r : RecordIndex} {m : Message} (hm : s.message r = some m) (q : Port) :
    missesAt s r q = (!m.confirm && m.targets.any fun x => x.port == q && x.outcome == .queued) := by
  have houtcome : (m.outcomeOf q == some .queued) = m.targets.any fun x => x.port == q && x.outcome == .queued := by
    rw [Bool.eq_iff_iff, beq_iff_eq, List.any_eq_true]
    constructor
    · intro h
      obtain ⟨x, hx, houtcome⟩ := Option.map_eq_some_iff.1 h
      have hport := List.find?_some hx
      exact ⟨x, List.mem_of_find?_eq_some hx, by rw [hport, houtcome]; rfl⟩
    · rintro ⟨x, hx, hmatch⟩
      simp only [Bool.and_eq_true, beq_iff_eq] at hmatch
      obtain ⟨rfl, hqueued⟩ := hmatch
      rw [outcomeOf_of_mem (hs.sound r m hm).ascending hx, hqueued]
  rw [missesAt, hm, Option.any_some, houtcome]

/-- Every port is rid of the record, and its missed latch follows (R64, R67, R81). -/
theorem expire_lists {s : State} (hs : Agrees s) {r : RecordIndex} {m : Message} (hm : s.message r = some m)
    (q : Port) :
    ((s.expire r).port q).portState = (s.port q).portState ∧
      ((s.expire r).port q).missed = ((s.port q).missed ||
        (!m.confirm && m.targets.any fun x => x.port == q && x.outcome == .queued)) ∧
      ((s.expire r).port q).queue = ((s.port q).queue.filter fun d => d.handle ≠ s.handle r) ∧
      ((s.expire r).port q).held = (s.port q).held.filter fun h => h ≠ s.handle r := by
  obtain ⟨⟨hstate, hmissed⟩, hqueue, hheld⟩ := closeIfSettled_frame (s.expireTargets r) r q
  have hport := (expireTargets_expired hs r).port q
  rw [if_pos (List.mem_finRange q)] at hport
  rw [State.expire, hstate, hmissed, hqueue, hheld, hport, expiredPort, missesAt_eq hs hm]
  exact ⟨rfl, rfl, by simp [ridOf, bne, beq_eq_decide], by simp [ridOf, bne, beq_eq_decide]⟩

/-- The record of lowest index whose remaining time is 0 is the one that expires next (R101). -/
theorem dueRecord_eq {s : State} {r : RecordIndex} {m : Message} (hm : s.message r = some m) (hzero : m.remaining = 0)
    (hlowest : ∀ k : RecordIndex, k < r → ∀ m' : Message, s.message k = some m' → m'.remaining ≠ 0) :
    s.dueRecord = some r := by
  refine List.find?_eq_some_iff_getElem.2 ⟨by simp [hm, hzero], r.val, by simp, by simp, fun j hj => ?_⟩
  have hbefore := hlowest ⟨j, hj.trans r.isLt⟩ hj
  rw [List.getElem_finRange, Fin.cast_mk]
  cases hk : s.message ⟨j, hj.trans r.isLt⟩ with
  | none => rfl
  | some m' => simpa using hbefore m' hk

/-! ## The end of the tick taking (R99, R159) -/

theorem endTick_of_midTick {s : State} (h : s.midTick = true) : s.endTick = s := by rw [State.endTick, if_pos h]

theorem endTick_of_not_midTick {s : State} (h : s.midTick = false) : s.endTick = s.refresh := by
  rw [State.endTick, h, if_neg Bool.false_ne_true]

/-- A message whose time has run out keeps the tick taking going (log entry 5). -/
theorem midTick_of_zero {s : State} {r : RecordIndex} {m : Message} (hm : s.message r = some m)
    (hzero : m.remaining = 0) : s.midTick = true := by
  by_contra h
  exact midTick_eq_false_iff.1 (Bool.not_eq_true _ ▸ h) r m hm hzero

/-- The refresh changes no table of the core. -/
theorem refresh_sameTables (s : State) : SameTables s s.refresh := by
  refine ⟨fun q => ?_, refresh_group s, refresh_record s, refresh_reservedTotal s, refresh_freeList s, fun a => ?_⟩
  · rw [SamePort, refresh_port]
  · rw [refresh_pool]

theorem endTick_sameTables (s : State) : SameTables s s.endTick := by
  unfold State.endTick
  split
  · exact sameTables_refl s
  · exact refresh_sameTables s

theorem endTick_message (s : State) (r : RecordIndex) : s.endTick.message r = s.message r :=
  (endTick_sameTraffic s).message r

/-- The end of the taking leaves the tick slot, the arbiter, the queue of commands, and of a PFE all but ATNn. -/
theorem endTick_frame (s : State) :
    s.endTick.tickCount = s.tickCount ∧ s.endTick.ringNext = s.ringNext ∧ s.endTick.underway = s.underway ∧
      s.endTick.pending = s.pending ∧ ∀ q, s.endTick.pfe q = { s.pfe q with atn := (s.endTick.pfe q).atn } := by
  cases h : s.midTick with
  | true =>
    rw [endTick_of_midTick h]
    exact ⟨rfl, rfl, rfl, rfl, fun _ => rfl⟩
  | false =>
    rw [endTick_of_not_midTick h]
    exact ⟨refresh_tickCount s, refresh_ringNext s, refresh_underway s, refresh_pending s,
      fun q => by rw [refresh_pfe]; rfl⟩

/-- Once no message is at 0 the summaries are published and ATNn follows them (R159, R161). -/
theorem endTick_published {s : State} (h : s.midTick = false) :
    Published s.endTick ∧ ∀ q, AttentionOnly s s.endTick q := by
  rw [endTick_of_not_midTick h]
  refine ⟨fun q => by simp only [refresh_port, summaryOf_withSummary], fun q => ?_⟩
  rw [AttentionOnly, refresh_pfe, refresh_port]
  rfl

/-- Settles O46: the targets expire one after another, so none is open and the record closes; the summaries are
published by the end of the taking alone. -/
theorem recordExpirySettlesTargets : Obligations.RecordExpirySettlesTargets := by
  intro s r m hm hzero hlowest hlaw
  obtain ⟨hs, -⟩ := handleLaw_iff.1 hlaw
  have hexec : exec (.recordExpiry r) s = .next (s.expire r).endTick :=
    if_pos (dueRecord_eq hm hzero hlowest)
  have hcore := expire_coreOnly s r
  have htables := endTick_sameTables (s.expire r)
  obtain ⟨htick, hring, hunderway, hpending, hpfe⟩ := endTick_frame (s.expire r)
  refine ⟨_, hexec, recordCloses_of_sameTables (expire_closes hs hm) htables, fun q => ?_, fun a => ?_,
    htick.trans hcore.tickCount, hring.trans hcore.ringNext, hunderway.trans hcore.underway,
    hpending.trans hcore.pending, fun q => ?_, fun hdone => ?_, fun k m' hk hzero' q => ?_⟩
  · obtain ⟨hstate, hmissed, hqueue, hheld⟩ := SamePort.lists (htables.1 q)
    obtain ⟨hstate', hmissed', hqueue', hheld'⟩ := expire_lists hs hm q
    exact ⟨hstate.trans hstate', hmissed.trans hmissed', hqueue.trans hqueue', hheld.trans hheld'⟩
  · obtain ⟨-, -, -, -, -, hbytes⟩ := htables
    rw [hbytes, hcore.pool]
  · rw [← hcore.pfe]
    exact hpfe q
  · have hmid : (s.expire r).midTick = false :=
      midTick_eq_false_iff.2 fun k m' hk => hdone k m' ((endTick_message _ k).trans hk)
    obtain ⟨hpublished, hattention⟩ := endTick_published hmid
    refine ⟨hpublished, fun q => ?_⟩
    rw [AttentionOnly, ← hcore.pfe]
    exact hattention q
  · have hmid := midTick_of_zero ((endTick_message (s.expire r) k).symm.trans hk) hzero'
    rw [endTick_of_midTick hmid]
    exact ⟨hcore.summary q, hcore.pfe q⟩

end Sys2Proof.Machine.Expiry

namespace Sys2Proof.Machine.Granting

open Laws

/-! ## The ring of the slots (R150) -/

/-- The distance of a slot in the ring from the place that the arbiter goes on from. -/
def distance (k : Fin 13) (slot : Slot) : Fin 13 := slot.position - k

/-- From any place on, the slots of the ring stand at the distances 0 to 12, in order. -/
theorem distance_rotateLeft (k : Fin 13) : (slotRing.rotateLeft k.val).map (distance k) = List.finRange 13 := by
  revert k
  decide

/-- A slot stands in the ring at its position. -/
theorem slotRing_position (slot : Slot) : slotRing[slot.position.val]? = some slot := by
  cases slot with
  | command p => revert p; decide
  | presence p => revert p; decide
  | tick => rfl

theorem position_injective : Function.Injective Slot.position := fun a b h =>
  Option.some.inj <| by rw [← slotRing_position a, h, slotRing_position b]

/-- The ring is gone through whole, from whatever place on. -/
theorem mem_rotateLeft (k : Fin 13) (slot : Slot) : slot ∈ slotRing.rotateLeft k.val := by
  have hdistance : distance k slot ∈ (slotRing.rotateLeft k.val).map (distance k) := by
    rw [distance_rotateLeft]
    exact List.mem_finRange _
  obtain ⟨other, hother, heq⟩ := List.mem_map.1 hdistance
  rwa [← position_injective (sub_left_injective heq)]

theorem pairwise_rotateLeft (k : Fin 13) :
    (slotRing.rotateLeft k.val).Pairwise fun a b => distance k a < distance k b := by
  rw [← List.pairwise_map (f := distance k) (R := (· < ·)), distance_rotateLeft]
  exact List.pairwise_lt_finRange 13

/-- The first slot found from a place on is the nearest of those that have the property. -/
theorem distance_le_of_find? {k : Fin 13} {f : Slot → Bool} {slot other : Slot}
    (hfind : (slotRing.rotateLeft k.val).find? f = some slot) (hother : f other = true) :
    distance k slot ≤ distance k other := by
  obtain ⟨-, before, after, hring, hbefore⟩ := List.find?_eq_some_iff_append.1 hfind
  have hmem := mem_rotateLeft k other
  have hsorted := pairwise_rotateLeft k
  rw [hring] at hmem hsorted
  obtain ⟨-, hsorted, -⟩ := List.pairwise_append.1 hsorted
  obtain ⟨hafter, -⟩ := List.pairwise_cons.1 hsorted
  obtain hpassed | hlater := List.mem_append.1 hmem
  · exact absurd hother (by simpa using hbefore other hpassed)
  · obtain rfl | hlater := List.mem_cons.1 hlater
    · exact le_rfl
    · exact (hafter other hlater).le

/-! ## The requests and the grant (R98, R127, R150, R152) -/

/-- A command slot requests while it holds a request and no RECALL reply is shifted (R152, log entry 15). -/
theorem requests_command_iff (s : State) (p : Port) :
    s.requests (.command p) = true ↔
      (s.pfe p).slot ≠ none ∧ ¬ ((s.pfe p).txn = .reply ∧ (s.pfe p).command = some .recall) := by
  simp [State.requests, Pfe.recalling, Option.isSome_iff_ne_none, imp_iff_not_or]

theorem requests_tick_iff (s : State) : s.requests .tick = true ↔ 1 ≤ s.tickCount := by
  simp [State.requests]

theorem grant_of_midTick {s : State} (h : s.midTick = true) : s.grant = none := by
  rw [State.grant, if_pos h]

theorem grant_of_underway {s : State} {p : Port} (hmid : s.midTick = false) (h : s.underway = some p) :
    s.grant = some (.command p) := by
  simp only [State.grant, hmid, h, if_neg Bool.false_ne_true]

/-- Between takings the arbiter goes through the ring from its place on. -/
theorem grant_eq_find? {s : State} (hmid : s.midTick = false) (h : s.underway = none) :
    s.grant = (slotRing.rotateLeft s.ringNext.val).find? s.requests := by
  simp only [State.grant, hmid, h, if_neg Bool.false_ne_true]

/-- Settles O18: between takings the grant is the first requesting slot of the ring, which holds every slot. -/
theorem arbiterGrantsFirstRequester : Obligations.ArbiterGrantsFirstRequester := by
  intro s
  refine ⟨fun p => ⟨requests_command_iff s p, Iff.rfl⟩, requests_tick_iff s, grant_of_midTick,
    fun p hmid => grant_of_underway hmid, fun hmid hunderway => ?_⟩
  rw [grant_eq_find? hmid hunderway]
  refine ⟨fun slot hslot => ⟨List.find?_some hslot, fun other hother => ?_⟩, fun slot hslot => ?_⟩
  · exact distance_le_of_find? hslot hother
  · exact List.find?_isSome.2 ⟨slot, mem_rotateLeft _ slot, hslot⟩

end Sys2Proof.Machine.Granting

namespace Sys2Proof.Machine.Ticking

open Laws MessagePool Sending Traffic Queues Receiving Expiry

/-! ## TICK at one front-end (R127, R155, R156) -/

/-- The sample agrees with the one before it and differs from the accepted level (R156). -/
abbrev AcceptsChange (now : Bool) (f : Pfe) : Prop := now = f.filter.lastSample ∧ now ≠ f.filter.accepted

/-- The presence slot once a change to this level is accepted (R127). -/
theorem accept_eq (now : Bool) (slot : PresenceSlot) :
    slot.accept now =
      if now then { lostSeen := slot.lostSeen, level := true, pending := true }
      else { lostSeen := true, level := false, pending := true } := rfl

/-- A change that two samples agree on is accepted into the filter and the presence slot; another sample is only kept
for the next tick. -/
theorem samplePresence_eq (now : Bool) (f : Pfe) :
    f.samplePresence now =
      { f with
        filter := { lastSample := now, accepted := if AcceptsChange now f then now else f.filter.accepted }
        presence := if AcceptsChange now f then f.presence.accept now else f.presence } := by
  have hcase : (now == f.filter.lastSample && now != f.filter.accepted) = true ↔ AcceptsChange now f := by
    simp
  rw [Pfe.samplePresence]
  by_cases h : AcceptsChange now f
  · rw [if_pos (hcase.2 h), if_pos h, if_pos h]
  · rw [if_neg fun hc => h (hcase.1 hc), if_neg h, if_neg h]

theorem receiving_iff (f : Pfe) : f.receiving = true ↔ f.txn = .cmd ∨ f.txn = .param ∨ f.txn = .payload := by
  simp [Pfe.receiving, or_assoc]

/-- An idle tick is counted in CMD, PARAM and PAYLOAD alone (R155). -/
theorem countIdle_eq (f : Pfe) :
    f.countIdle =
      { f with
        idleCount := if f.txn = .cmd ∨ f.txn = .param ∨ f.txn = .payload then f.idleCount + 1 else f.idleCount } := by
  rw [Pfe.countIdle]
  by_cases h : f.receiving = true
  · rw [if_pos h, if_pos ((receiving_iff f).1 h)]
  · rw [if_neg h, if_neg fun hr => h ((receiving_iff f).2 hr)]

/-- The tick slot's count holds at 255 (R98). -/
theorem min_tickCountLimit (n : Nat) : min (n + 1) Config.tickCountLimit = if n < 255 then n + 1 else 255 := by
  simp only [Config.tickCountLimit]
  split <;> omega

/-- Settles O17: each PFE records the fault that is due, then samples its line, then counts. -/
theorem tickCountsAndSamples : Obligations.TickCountsAndSamples := by
  intro s prs
  refine ⟨_, rfl, ?_, fun p => ?_, fun p => ?_, ⟨fun g => ?_, fun r => ?_, ?_, ?_, fun a => ?_⟩, ?_, ?_, ?_⟩
  · rw [mapPfes_tickCount, setTickCount_tickCount, min_tickCountLimit]
  · rw [mapPfes_pfe, setTickCount_pfe, Pfe.tick, countIdle_eq, samplePresence_eq, accept_eq,
      ← idleRecorded_eq_idleFault]
    rfl
  all_goals simp -- outside the PFEs and the tick slot

/-! ## The tick taking (R98, R99, R159) -/

/-- The core's tables once the tick slot is taken, before any record expires. -/
def tickTaken (s : State) : State := ((s.setTickCount 0).lowerRemaining s.tickCount).granted .tick

theorem exec_tickTaking {s : State} (h : s.grant = some .tick) : exec .tickTaking s = .next (tickTaken s).endTick :=
  if_pos h

/-- Every remaining time falls by the count, holding at 0 (R99). -/
theorem tickTaken_record (s : State) (r : RecordIndex) :
    (tickTaken s).record r =
      { s.record r with
        message := (s.message r).map fun m => { m with remaining := m.remaining - s.tickCount } } := by
  simp [tickTaken, State.granted, State.lowerRemaining, State.message]

/-- Everything else of the hub is as it was (R98). -/
theorem tickTaken_frame (s : State) :
    (∀ q, (tickTaken s).port q = s.port q) ∧ (∀ q, (tickTaken s).pfe q = s.pfe q) ∧
      (∀ g, (tickTaken s).group g = s.group g) ∧ (tickTaken s).reservedTotal = s.reservedTotal ∧
      (tickTaken s).freeList = s.freeList ∧ (tickTaken s).pool = s.pool ∧ (tickTaken s).pending = s.pending := by
  simp [tickTaken, State.granted, State.lowerRemaining]

/-- The count is cleared, and the arbiter goes on from the head of the ring (R98, R150). -/
theorem tickTaken_counts (s : State) :
    (tickTaken s).tickCount = 0 ∧ (tickTaken s).ringNext = 0 ∧ (tickTaken s).underway = none := by
  simp [tickTaken, State.granted, State.lowerRemaining, Slot.position]

/-- Settles O45: the remaining times fall by the count, and the end of the taking publishes once none is at 0. -/
theorem tickTakingLowersRemaining : Obligations.TickTakingLowersRemaining := by
  intro s hgrant
  obtain ⟨hport, hpfe, hgroup, hreserved, hfree, hpool, hpending⟩ := tickTaken_frame s
  obtain ⟨hcleared, hhead, hnone⟩ := tickTaken_counts s
  obtain ⟨hports, hgroup', hrecord, hreserved', hfree', hbytes⟩ := endTick_sameTables (tickTaken s)
  obtain ⟨htick, hring, hunderway, hpending', hatn⟩ := endTick_frame (tickTaken s)
  refine ⟨_, exec_tickTaking hgrant, htick.trans hcleared, fun r => ⟨?_, ?_⟩, fun g => (hgroup' g).trans (hgroup g),
    fun q => ?_, hreserved'.trans hreserved, hfree'.trans hfree, fun a => ?_, hring.trans hhead,
    hunderway.trans hnone, hpending'.trans hpending, fun q => ?_, fun hdone => ?_, fun r m hm hzero q => ?_⟩
  · rw [hrecord, tickTaken_record]
  · rw [endTick_message, State.message, tickTaken_record]
  · rw [SamePort, ← hport]
    exact hports q
  · rw [hbytes, hpool]
  · rw [← hpfe]
    exact hatn q
  · have hmid : (tickTaken s).midTick = false :=
      midTick_eq_false_iff.2 fun r m hm => hdone r m ((endTick_message _ r).trans hm)
    obtain ⟨hpublished, hattention⟩ := endTick_published hmid
    refine ⟨hpublished, fun q => ?_⟩
    rw [AttentionOnly, ← hpfe]
    exact hattention q
  · have hmid := midTick_of_zero ((endTick_message (tickTaken s) r).symm.trans hm) hzero
    rw [endTick_of_midTick hmid]
    exact ⟨by rw [hport], hpfe q⟩

end Sys2Proof.Machine.Ticking

namespace Sys2Proof.Machine.Answering

open Laws MessagePool Sending Traffic Queues Handles Receiving Expiry

/-! ## The answer to one held message (R92 to R94) -/

/-- No check of R92 fails for a port that is ACTIVE and holds the handle. -/
theorem answerChecks_pass {s : State} {p : Port} {index generation : Byte} {h : Handle}
    (hactive : (s.port p).portState = .active) (hheld : s.heldEntry p index generation = some h) :
    firstFail (answerChecks p index generation s) = none := by
  refine firstFail_none.2 ?_
  simp only [answerChecks, List.forall_mem_cons, hheld]
  exact ⟨by simp [State.notActive, hactive], rfl, by simp⟩

/-- A granted answer to a held handle has its effect, and its reply is OK alone. -/
theorem takeCommand_answers {s : State} {p : Port} {req : Request} {index generation : Byte} {h : Handle}
    (effect : Handle → State → State) (htakes : s.takes p req = true) (hactive : (s.port p).portState = .active)
    (hheld : s.heldEntry p index generation = some h) :
    takeCommand p req
        (fun s => judged s (answerChecks p index generation s) (answerEffect p index generation effect s)) s =
      .next (afterTaking p (effect h s) [0x00]) := by
  have heffect : answerEffect p index generation effect s = .ok (effect h s, [0x00]) := by
    rw [answerEffect, hheld]
    rfl
  exact takeCommand_passes (checks := answerChecks p index generation) htakes (answerChecks_pass hactive hheld) heffect

/-- A taking whose effect stays within the core's tables answers, and writes no byte of the pool. -/
theorem coreOnly_answered {s t : State} (h : CoreOnly s t) (p : Port) (reply : List Byte) :
    Answered p reply s (afterTaking p t reply) ∧ SameBytes s (afterTaking p t reply) :=
  ⟨answeredFrom_afterTaking (h.pfe p) (fun q _ => h.pfe q) h.tickCount h.pending,
    fun a => by rw [afterTaking_pool, h.pool]⟩

theorem answer_port (p : Port) (h : Handle) (o : TargetOutcome) (code : Byte) (s : State) (q : Port) :
    (answer p h o code s).port q =
      if q = p then { s.port q with held := (s.port q).held.filter fun k => k ≠ h } else s.port q := by
  rw [answer, State.setTarget, modMessage_port, modPort_port]
  by_cases hq : p = q
  · subst hq
    simp [bne, beq_eq_decide]
  · rw [if_neg hq, if_neg (Ne.symm hq)]

theorem answer_recordStays {s : State} {p : Port} {h : Handle} {m : Message} (hm : s.message h.index = some m)
    (o : TargetOutcome) (code : Byte) : RecordStays h.index (m.withOutcome p o code) s (answer p h o code s) := by
  unfold answer
  refine setTarget_recordStays hm ?_ (fun q => ?_) p o code
  · exact ⟨fun _ => rfl, fun _ => rfl, rfl, rfl, fun _ => rfl⟩
  rw [modPort_port]
  split
  · rename_i hq
    subst hq
    exact ⟨rfl, rfl, rfl⟩
  · exact ⟨rfl, rfl, rfl⟩

/-- What an answer and the check of R91 after it leave of a port: only the answering port loses the handle. -/
theorem answer_closeIfSettled_lists (p : Port) (h : Handle) (o : TargetOutcome) (code : Byte) (s : State) (q : Port) :
    SamePlace s ((answer p h o code s).closeIfSettled none h.index) q ∧
      (((answer p h o code s).closeIfSettled none h.index).port q).queue = (s.port q).queue ∧
      (((answer p h o code s).closeIfSettled none h.index).port q).held =
        (if q = p then (s.port q).held.filter (fun k => k ≠ h) else (s.port q).held) := by
  obtain ⟨⟨hstate, hmissed⟩, hqueue, hheld⟩ := closeIfSettled_frame (answer p h o code s) h.index q
  rw [SamePlace, hstate, hmissed, hqueue, hheld, answer_port]
  split <;> exact ⟨⟨rfl, rfl⟩, rfl, rfl⟩

/-- Settles O42: the named handle is held, so every check passes, and its record is checked for its close. -/
theorem ackSettlesTarget : Obligations.AckSettlesTarget := by
  intro s p h index generation code m htakes hactive hmem hindex hgeneration hm
  have hheld := heldEntry_eq hmem hindex hgeneration
  obtain ⟨hanswered, hbytes⟩ := coreOnly_answered (ackEffect_coreOnly p code h s) p [0x00]
  have hsettles : Settles h.index (m.withOutcome p .acked code) s (ackEffect p code h s) :=
    closeIfSettled_settles (answer_recordStays hm .acked code)
  refine ⟨_, takeCommand_answers (ackEffect p code) htakes hactive hheld, hanswered,
    settles_of_sameTables hsettles (afterTaking_sameTables p _ _), fun q => ?_, hbytes⟩
  rw [SamePlace, afterTaking_port]
  exact answer_closeIfSettled_lists p h .acked code s q

/-! ## The open targets of a record made final one after another (R95) -/

theorem recordStays_refl {s : State} {r : RecordIndex} {m : Message} (hm : s.message r = some m) :
    RecordStays r m s s := by
  refine ⟨fun k => ?_, fun _ => rfl, rfl, rfl, fun _ => ⟨rfl, rfl, rfl⟩⟩
  rw [← hm]
  split
  · rename_i h; subst h; rfl
  · rfl

/-- A change of a record that stays, after another. -/
theorem recordStays_trans {r : RecordIndex} {m m' : Message} {s t u : State} (h : RecordStays r m s t)
    (k : RecordStays r m' t u) : RecordStays r m' s u := by
  obtain ⟨hrecord, hgroup, hreserved, hfree, hports⟩ := h
  obtain ⟨hrecord', hgroup', hreserved', hfree', hports'⟩ := k
  refine ⟨fun k => ?_, fun g => (hgroup' g).trans (hgroup g), hreserved'.trans hreserved, hfree'.trans hfree,
    fun q => ?_⟩
  · rw [hrecord', hrecord, hrecord, if_pos rfl]
    split <;> rfl
  · obtain ⟨hsends, hdone, hroster⟩ := hports q
    obtain ⟨hsends', hdone', hroster'⟩ := hports' q
    exact ⟨hsends'.trans hsends, hdone'.trans hdone, hroster'.trans hroster⟩

/-- An update of a record's message changes that record alone. -/
theorem modMessage_recordStays {s : State} {r : RecordIndex} {m : Message} (hm : s.message r = some m)
    (f : Message → Message) : RecordStays r (f m) s (s.modMessage r f) := by
  refine ⟨fun k => ?_, fun _ => rfl, rfl, rfl, fun _ => ⟨rfl, rfl, rfl⟩⟩
  rw [modMessage_record, hm, Option.map_some]
  exact if_congr eq_comm rfl rfl

theorem ridOf_queue (h : Handle) (c : CorePort) : (ridOf h c).queue = c.queue.filter fun d => d.handle ≠ h := by
  simp [ridOf, bne, beq_eq_decide]

theorem ridOf_held (h : Handle) (c : CorePort) : (ridOf h c).held = c.held.filter fun k => k ≠ h := by
  simp [ridOf, bne, beq_eq_decide]

/-- A port rid of a handle twice is rid of it. -/
theorem ridOf_ridOf (h : Handle) (c : CorePort) : ridOf h (ridOf h c) = ridOf h c := by
  simp [ridOf, List.filter_filter]

/-- In `t` the targets among these ports of record `r`, which tracks `m` in `s`, have been settled. -/
structure TargetsSettled (r : RecordIndex) (o : TargetOutcome) (qs : List Port) (m : Message) (s t : State) : Prop where
  agrees : Agrees t
  stays  : RecordStays r (settledAt qs o m) s t
  port   : ∀ q, t.port q = if q ∈ qs then ridOf (s.handle r) (s.port q) else s.port q

/-- One target of the record is settled. -/
theorem settleOne {s : State} (hs : Agrees s) {r : RecordIndex} {m : Message} (hm : s.message r = some m) (q : Port)
    {o : TargetOutcome} (ho : o.isOpen = false) : TargetsSettled r o [q] m s (s.settle r q o 0) := by
  obtain ⟨hgroup, hreserved, hfree⟩ := settle_stores s r q o 0
  have hport := hs.settle_port r q o 0
  refine ⟨hs.settle r q ho 0, ⟨fun k => ?_, hgroup, hreserved, hfree, fun k => ?_⟩, fun k => ?_⟩
  · rw [settle_record hs, hm, Option.map_some]
    exact if_congr eq_comm rfl rfl
  · rw [hport]
    split <;> exact ⟨rfl, rfl, rfl⟩
  · rw [hport]
    exact if_congr (by simp [eq_comm]) rfl rfl

/-- The targets are settled in the order of a list of ports. -/
theorem foldl_settle {r : RecordIndex} {o : TargetOutcome} (ho : o.isOpen = false) (qs : List Port) {m : Message}
    {s : State} (hs : Agrees s) (hm : s.message r = some m) :
    TargetsSettled r o qs m s (qs.foldl (fun t q => t.settle r q o 0) s) := by
  induction qs generalizing s m with
  | nil =>
    have hnone : settledAt [] o m = m := by
      have hid : finalTarget [] o = id := funext fun _ => finalTarget_of_not_mem List.not_mem_nil o
      rw [settledAt, hid, List.map_id]
    exact ⟨hs, hnone.symm ▸ recordStays_refl hm, fun _ => by simp⟩
  | cons q qs ih =>
    have hone := settleOne hs hm q ho
    obtain ⟨hagrees, hstays, hport⟩ := ih hone.agrees (RecordStays.message hone.stays)
    rw [settledAt_cons q qs ho] at hstays
    refine ⟨hagrees, recordStays_trans hone.stays hstays, fun k => ?_⟩
    rw [List.foldl_cons, hport, RecordStays.handle hone.stays, hone.port]
    by_cases hk : k = q
    · subst hk
      simp [ridOf_ridOf]
    · simp [hk]

/-! ## NACK under stop-on-refusal (R94, R95) -/

/-- The refusal stops the message where it was sent with stop-on-refusal and is not stopped yet (R95). -/
theorem stopsOnRefusal_of_message {s : State} {r : RecordIndex} {m : Message} (hm : s.message r = some m)
    (hstopped : m.stopped = false) : s.stopsOnRefusal r = m.stopOnRefusal := by
  rw [State.stopsOnRefusal, hm, Option.any_some, hstopped, Bool.not_false, Bool.and_true]

/-- Stopping a message settles every target still open, and rids every port of the record (R95). -/
theorem stopMessage_settles {s : State} (hs : Agrees s) {r : RecordIndex} {m : Message} (hm : s.message r = some m) :
    RecordStays r { m.withOpenSettled .cancelled with stopped := true } s (s.stopMessage r) ∧
      ∀ q, (s.stopMessage r).port q = ridOf (s.handle r) (s.port q) := by
  have hstopped := modMessage_recordStays hm fun m => { m with stopped := true }
  have hagrees := (modMessage_sameRoutes s r (f := fun m => { m with stopped := true }) fun _ => rfl).agrees hs
  obtain ⟨-, hstays, hport⟩ := foldl_settle (o := .cancelled) rfl allPorts hagrees (RecordStays.message hstopped)
  rw [settledAt_allPorts] at hstays
  refine ⟨recordStays_trans hstopped hstays, fun q => ?_⟩
  rw [State.stopMessage, hport, if_pos (List.mem_finRange q), RecordStays.handle hstopped, modMessage_port]

/-- The answer to a held handle rids the answering port of its record. -/
theorem answer_port_ridOf {s : State} (hs : Agrees s) {p : Port} {h : Handle} (hh : h ∈ (s.port p).held)
    (o : TargetOutcome) (code : Byte) (q : Port) :
    (answer p h o code s).port q = if p = q then ridOf h (s.port q) else s.port q := by
  rw [hs.answer_eq hh, hs.settle_port, ← (hs.held_eq_iff hh h.index).2 rfl]

/-- A NACK that stops nothing settles its own target alone (R94). -/
theorem nackEffect_answers {s : State} {p : Port} {h : Handle} {code : Byte} {m : Message}
    (hm : s.message h.index = some m) (hstopped : m.stopped = false) (hstop : m.stopOnRefusal = false) :
    Settles h.index (m.withOutcome p .refused code) s (nackEffect p code h s) ∧
      ∀ q, SamePlace s (nackEffect p code h s) q ∧ ((nackEffect p code h s).port q).queue = (s.port q).queue ∧
        ((nackEffect p code h s).port q).held =
          (if q = p then (s.port q).held.filter (fun k => k ≠ h) else (s.port q).held) := by
  have hanswer := answer_recordStays (p := p) hm .refused code
  have hstops := (stopsOnRefusal_of_message (RecordStays.message hanswer) hstopped).trans hstop
  have heffect : nackEffect p code h s = (answer p h .refused code s).closeIfSettled none h.index := by
    simp only [nackEffect, hstops, if_neg Bool.false_ne_true]
  rw [heffect]
  exact ⟨closeIfSettled_settles hanswer, answer_closeIfSettled_lists p h .refused code s⟩

/-- A NACK that stops its message leaves no target open: the record closes and every port is rid of it (R95, R103). -/
theorem nackEffect_stops {s : State} (hs : Agrees s) {p : Port} {h : Handle} {code : Byte} {m : Message}
    (hh : h ∈ (s.port p).held) (hm : s.message h.index = some m) (hstopped : m.stopped = false)
    (hstop : m.stopOnRefusal = true) :
    RecordCloses h.index { (m.withOutcome p .refused code).withOpenSettled .cancelled with stopped := true } s
        (nackEffect p code h s) ∧
      ∀ q, SamePlace s (nackEffect p code h s) q ∧
        ((nackEffect p code h s).port q).queue = ((s.port q).queue.filter fun d => d.handle ≠ h) ∧
        ((nackEffect p code h s).port q).held = (s.port q).held.filter fun k => k ≠ h := by
  have hanswer := answer_recordStays (p := p) hm .refused code
  have hmessage := RecordStays.message hanswer
  have hstops := (stopsOnRefusal_of_message hmessage hstopped).trans hstop
  have heffect : nackEffect p code h s =
      ((answer p h .refused code s).stopMessage h.index).closeIfSettled none h.index := by
    simp only [nackEffect, hstops, if_pos]
  have hhandle : (answer p h .refused code s).handle h.index = h :=
    (RecordStays.handle hanswer).trans ((hs.held_eq_iff hh h.index).2 rfl).symm
  have hagrees : Agrees (answer p h .refused code s) := hs.answer_eq hh _ code ▸ hs.settle h.index p rfl code
  obtain ⟨hstays, hport⟩ := stopMessage_settles hagrees hmessage
  have hrid (q : Port) : ((answer p h .refused code s).stopMessage h.index).port q = ridOf h (s.port q) := by
    rw [hport, hhandle, answer_port_ridOf hs hh]
    split
    · exact ridOf_ridOf h _
    · rfl
  rw [heffect]
  obtain ⟨-, hcloses⟩ := closeIfSettled_settles (recordStays_trans hanswer hstays)
  refine ⟨hcloses (withOpenSettled_hasOpenTarget _ rfl), fun q => ?_⟩
  obtain ⟨⟨hstate, hmissed⟩, hqueue, hheld⟩ :=
    closeIfSettled_frame ((answer p h .refused code s).stopMessage h.index) h.index q
  rw [SamePlace, hstate, hmissed, hqueue, hheld, hrid]
  exact ⟨⟨rfl, rfl⟩, ridOf_queue h _, ridOf_held h _⟩

/-- Settles O43: without stop-on-refusal the answer alone is checked for the close; with it, every target is final. -/
theorem nackRefusesOrStops : Obligations.NackRefusesOrStops := by
  intro s p h index generation code m htakes hactive hmem hindex hgeneration hm hstopped hlaw
  obtain ⟨hs, -⟩ := handleLaw_iff.1 hlaw
  have hheld := heldEntry_eq hmem hindex hgeneration
  have htables := afterTaking_sameTables p (nackEffect p code h s) [0x00]
  have hanswers := nackEffect_answers (p := p) (code := code) hm hstopped
  have hstops := nackEffect_stops hs (code := code) hmem hm hstopped
  have hplace (q : Port) : SamePlace s (nackEffect p code h s) q := by
    cases hstop : m.stopOnRefusal with
    | false => exact ((hanswers hstop).2 q).1
    | true => exact ((hstops hstop).2 q).1
  obtain ⟨hanswered, hbytes⟩ := coreOnly_answered (nackEffect_coreOnly p code h s) p [0x00]
  refine ⟨_, takeCommand_answers (nackEffect p code) htakes hactive hheld, hanswered, hbytes, fun q => ?_,
    fun hstop => ?_, fun hstop => ?_⟩
  · rw [SamePlace, afterTaking_port]
    exact hplace q
  · obtain ⟨hsettles, hports⟩ := hanswers hstop
    refine ⟨settles_of_sameTables hsettles htables, fun q => ?_⟩
    rw [afterTaking_port]
    exact (hports q).2
  · obtain ⟨hcloses, hports⟩ := hstops hstop
    refine ⟨recordCloses_of_sameTables hcloses htables, fun q => ?_⟩
    rw [afterTaking_port]
    exact (hports q).2

end Sys2Proof.Machine.Answering

namespace Sys2Proof.Machine.SendLists

open Laws MessagePool FrontEnds Sending Traffic Queues Handles Receiving Expiry

/-! ## The law of one port's send list (R111, R112, R114) -/

@[simp] theorem carries_inTransit (tag : Byte) (k h : Handle) (confirm : Bool) :
    (SendEntry.inTransit tag k confirm).carries h = (k == h) := rfl

@[simp] theorem carries_done (tag : Byte) (k : Completion) (h : Handle) :
    (SendEntry.done tag k).carries h = false := rfl

@[simp] theorem handleOf_inTransit (tag : Byte) (h : Handle) (confirm : Bool) :
    (SendEntry.inTransit tag h confirm).handleOf = some h := rfl

@[simp] theorem handleOf_done (tag : Byte) (k : Completion) : (SendEntry.done tag k).handleOf = none := rfl

@[simp] theorem isDone_inTransit (tag : Byte) (h : Handle) (confirm : Bool) :
    (SendEntry.inTransit tag h confirm).isDone = false := rfl

@[simp] theorem isDone_done (tag : Byte) (k : Completion) : (SendEntry.done tag k).isDone = true := rfl

@[simp] theorem tag_inTransit (tag : Byte) (h : Handle) (confirm : Bool) :
    (SendEntry.inTransit tag h confirm).tag = tag := rfl

@[simp] theorem tag_done (tag : Byte) (k : Completion) : (SendEntry.done tag k).tag = tag := rfl

/-- Port p's send list agrees with the records: its part of the window law. -/
structure Window (s : State) (p : Port) : Prop where
  tags    : ((s.port p).sends.map SendEntry.tag).Nodup
  handles : ((s.port p).sends.filterMap SendEntry.handleOf).Perm ((s.recordsOf p).map s.handle)
  agrees  : ∀ e ∈ (s.port p).sends, s.entryAgrees e = true
  order   : (s.port p).doneOrder.Perm (((s.port p).sends.filter SendEntry.isDone).map SendEntry.tag)

theorem windowLaw_iff {s : State} : WindowLaw s ↔ ∀ p, Window s p := by
  refine forall_congr' fun p => ⟨?_, ?_⟩
  · rintro ⟨htags, hhandles, hagrees, horder⟩
    exact ⟨htags, hhandles, List.all_eq_true.1 hagrees, horder⟩
  · rintro ⟨htags, hhandles, hagrees, horder⟩
    exact ⟨htags, hhandles, List.all_eq_true.2 hagrees, horder⟩

theorem sentBy_iff {s : State} {r : RecordIndex} {p : Port} :
    s.sentBy r p = true ↔ ∃ m, s.message r = some m ∧ m.sender = p := by
  simp [State.sentBy, Option.any_eq_true]

theorem mem_recordsOf {s : State} {p : Port} {r : RecordIndex} : r ∈ s.recordsOf p ↔ s.sentBy r p = true := by
  simp [State.recordsOf, State.sentBy]

theorem handle_eq_iff {s : State} {k r : RecordIndex} : s.handle k = s.handle r ↔ k = r :=
  ⟨congrArg Handle.index, congrArg s.handle⟩

theorem mem_handles_iff {sends : List SendEntry} {h : Handle} :
    h ∈ sends.filterMap SendEntry.handleOf ↔ ∃ tag confirm, SendEntry.inTransit tag h confirm ∈ sends := by
  rw [List.mem_filterMap]
  constructor
  · rintro ⟨e, he, hh⟩
    cases e with
    | inTransit tag k confirm => cases hh; exact ⟨tag, confirm, he⟩
    | done tag k => cases hh
  · rintro ⟨tag, confirm, he⟩
    exact ⟨_, he, rfl⟩

/-- An IN_TRANSIT entry names a record that the port has sent, in its present use (R111). -/
theorem Window.inTransit {s : State} {p : Port} (hs : Window s p) {tag : Byte} {h : Handle} {confirm : Bool}
    (he : SendEntry.inTransit tag h confirm ∈ (s.port p).sends) :
    s.sentBy h.index p = true ∧ h = s.handle h.index := by
  obtain ⟨r, hr, rfl⟩ := List.mem_map.1 (hs.handles.mem_iff.1 (mem_handles_iff.2 ⟨tag, confirm, he⟩))
  exact ⟨mem_recordsOf.1 hr, rfl⟩

theorem carries_iff {e : SendEntry} {h : Handle} :
    e.carries h = true ↔ ∃ tag confirm, e = .inTransit tag h confirm := by
  cases e <;> simp

/-- A port carries no entry of a record that another port has sent. -/
theorem Window.not_carries {s : State} {p : Port} (hs : Window s p) {r : RecordIndex} (hr : s.sentBy r p = false) :
    ∀ e ∈ (s.port p).sends, e.carries (s.handle r) = false := by
  intro e he
  by_contra hcarries
  obtain ⟨tag, confirm, rfl⟩ := carries_iff.1 (by simpa using hcarries)
  obtain ⟨hsent, -⟩ := hs.inTransit he
  exact absurd hsent (Bool.eq_false_iff.1 hr)

/-! ## Operations that a send list does not see -/

/-- What a send list depends on in a message. -/
def stamp (m : Message) : Port × Byte × Bool := (m.sender, m.tag, m.confirm)

/-- `t` has port q's send list and completion order, every handle, and the stamp of every message as in `s`. -/
structure SameWindow (q : Port) (s t : State) : Prop where
  sends     : (t.port q).sends = (s.port q).sends
  doneOrder : (t.port q).doneOrder = (s.port q).doneOrder
  handle    : ∀ r, t.handle r = s.handle r
  message   : ∀ r, (t.message r).map stamp = (s.message r).map stamp

section SameWindow

variable {q : Port}

theorem SameWindow.refl (s : State) : SameWindow q s s := ⟨rfl, rfl, fun _ => rfl, fun _ => rfl⟩

theorem SameWindow.trans {s t u : State} (h : SameWindow q s t) (k : SameWindow q t u) : SameWindow q s u :=
  ⟨k.sends.trans h.sends, k.doneOrder.trans h.doneOrder, fun r => (k.handle r).trans (h.handle r),
    fun r => (k.message r).trans (h.message r)⟩

theorem SameWindow.foldl {α : Type} {f : State → α → State} (hf : ∀ s a, SameWindow q s (f s a)) (l : List α)
    (s : State) : SameWindow q s (l.foldl f s) :=
  List.foldlRecOn l f (SameWindow.refl s) fun t ht a _ => ht.trans (hf t a)

/-- An operation that changes no record and neither list of the port. -/
theorem SameWindow.of_record {s t : State} (hrecord : ∀ r, t.record r = s.record r)
    (hsends : (t.port q).sends = (s.port q).sends) (hdone : (t.port q).doneOrder = (s.port q).doneOrder) :
    SameWindow q s t :=
  ⟨hsends, hdone, fun r => by rw [State.handle, hrecord, State.handle],
    fun r => by rw [State.message, hrecord, State.message]⟩

theorem SameWindow.of_sameTables {s t : State} (h : SameTables s t) : SameWindow q s t := by
  obtain ⟨hport, -, hrecord, -⟩ := h
  obtain ⟨hsends, hdone, -⟩ := SamePort.fields (hport q)
  exact .of_record hrecord hsends hdone

theorem SameWindow.sentBy {s t : State} (h : SameWindow q s t) (r : RecordIndex) (p : Port) :
    t.sentBy r p = s.sentBy r p := by
  have hstamp (u : State) : u.sentBy r p = ((u.message r).map stamp).any fun x => x.1 == p := by
    rw [Option.any_map]; rfl
  rw [hstamp, hstamp, h.message]

theorem SameWindow.entryAgrees {s t : State} (h : SameWindow q s t) (e : SendEntry) :
    t.entryAgrees e = s.entryAgrees e := by
  cases e with
  | done tag k => rfl
  | inTransit tag k confirm =>
    have hstamp (u : State) : u.entryAgrees (.inTransit tag k confirm) =
        ((u.message k.index).map stamp).any fun x => x.2.1 == tag && x.2.2 == confirm := by
      rw [Option.any_map]; rfl
    rw [hstamp, hstamp, h.message]

theorem SameWindow.window {s t : State} (h : SameWindow q s t) (hs : Window s q) : Window t q := by
  obtain ⟨htags, hhandles, hagrees, horder⟩ := hs
  have hrecords : t.recordsOf q = s.recordsOf q := List.filter_congr fun r _ => h.sentBy r q
  have hhandle : t.handle = s.handle := funext h.handle
  refine ⟨?_, ?_, fun e he => ?_, ?_⟩
  · rwa [h.sends]
  · rwa [h.sends, hrecords, hhandle]
  · rw [h.entryAgrees]
    exact hagrees e (h.sends ▸ he)
  · rwa [h.sends, h.doneOrder]

/-- An update of one port: of another's, or of one that leaves the send list and the completion order. -/
theorem modPort_sameWindow (s : State) (p : Port) {f : CorePort → CorePort}
    (hf : p = q → ∀ c, (f c).sends = c.sends ∧ (f c).doneOrder = c.doneOrder) : SameWindow q s (s.modPort p f) := by
  by_cases h : p = q
  · obtain ⟨hsends, hdone⟩ := hf h (s.port p)
    subst h
    exact .of_record (fun _ => rfl) (by rwa [modPort_port_same]) (by rwa [modPort_port_same])
  · exact .of_record (fun _ => rfl) (by rw [modPort_port_ne _ _ _ _ h]) (by rw [modPort_port_ne _ _ _ _ h])

theorem modPort_sameWindow_of_ne (s : State) {p : Port} (f : CorePort → CorePort) (h : p ≠ q) :
    SameWindow q s (s.modPort p f) := modPort_sameWindow s p fun hq => absurd hq h

theorem modMessage_sameWindow (s : State) (r : RecordIndex) {f : Message → Message}
    (hf : ∀ m, stamp (f m) = stamp m) : SameWindow q s (s.modMessage r f) := by
  refine ⟨rfl, rfl, modMessage_handle s r f, fun k => ?_⟩
  by_cases h : r = k
  · subst h
    rw [modMessage_message_same, Option.map_map]
    exact congrArg (fun g => (s.message r).map g) (funext hf)
  · rw [modMessage_message_ne _ _ _ _ h]

theorem lowerRemaining_sameWindow (s : State) (c : Nat) : SameWindow q s (s.lowerRemaining c) := by
  refine ⟨by rw [lowerRemaining_port], by rw [lowerRemaining_port], (lowerRemaining_sameRoutes s c).handle,
    fun r => ?_⟩
  simp only [State.lowerRemaining, State.message, mapRecords_record, Option.map_map]
  rfl

theorem modPfe_sameWindow (s : State) (p : Port) (f : Pfe → Pfe) : SameWindow q s (s.modPfe p f) :=
  .of_record (fun _ => rfl) rfl rfl

theorem mapPfes_sameWindow (s : State) (f : Port → Pfe → Pfe) : SameWindow q s (s.mapPfes f) :=
  .of_record (mapPfes_record s f) (by rw [mapPfes_port]) (by rw [mapPfes_port])

theorem modGroup_sameWindow (s : State) (g : GroupNo) (f : Group → Group) : SameWindow q s (s.modGroup g f) :=
  .of_record (fun _ => rfl) rfl rfl

theorem mapGroups_sameWindow (s : State) (f : GroupNo → Group → Group) : SameWindow q s (s.mapGroups f) :=
  .of_record (mapGroups_record s f) (by rw [mapGroups_port]) (by rw [mapGroups_port])

theorem setReserved_sameWindow (s : State) (n : Nat) : SameWindow q s (s.setReserved n) :=
  .of_record (fun _ => rfl) rfl rfl

theorem setFreeList_sameWindow (s : State) (bs : List Block) : SameWindow q s (s.setFreeList bs) :=
  .of_record (fun _ => rfl) rfl rfl

theorem setTickCount_sameWindow (s : State) (n : Nat) : SameWindow q s (s.setTickCount n) :=
  .of_record (fun _ => rfl) rfl rfl

theorem setArbiter_sameWindow (s : State) (k : Fin 13) (u : Option Port) : SameWindow q s (s.setArbiter k u) :=
  .of_record (fun _ => rfl) rfl rfl

theorem setPending_sameWindow (s : State) (cs : List Instr) : SameWindow q s (s.setPending cs) :=
  .of_record (fun _ => rfl) rfl rfl

theorem setPortState_sameWindow (s : State) (p : Port) (st : PortState) : SameWindow q s (s.setPortState p st) :=
  modPort_sameWindow s p fun _ _ => ⟨rfl, rfl⟩

theorem attachEffect_sameWindow (s : State) (p : Port) : SameWindow q s (attachEffect p s) := by
  unfold attachEffect State.addMember
  exact (setPortState_sameWindow s p .active).trans (modGroup_sameWindow _ 0 _)

theorem notifyRoster_sameWindow (s : State) (m : PortSet) (but : Option Port) :
    SameWindow q s (s.notifyRoster m but) := by
  refine .of_record (mapPorts_record s _) ?_ ?_ <;> rw [notifyRoster_port] <;> split <;> rfl

theorem freeIfDone_sameWindow (s : State) (g : GroupNo) (closer : Option Port) :
    SameWindow q s (s.freeIfDone g closer) := by
  unfold State.freeIfDone
  split
  · exact ((setReserved_sameWindow s _).trans (notifyRoster_sameWindow _ _ _)).trans (modGroup_sameWindow _ g _)
  · exact .refl s

theorem enterClosing_sameWindow (s : State) (g : GroupNo) (cause : Port) (closer : Option Port) :
    SameWindow q s (s.enterClosing g cause closer) :=
  ((modGroup_sameWindow s g _).trans (notifyRoster_sameWindow _ _ _)).trans (freeIfDone_sameWindow _ g closer)

theorem loseAnchor_sameWindow (p : Port) (s : State) (g : GroupNo) : SameWindow q s (State.loseAnchor p s g) := by
  unfold State.loseAnchor
  split
  · dsimp only
    split
    · exact (modGroup_sameWindow s g _).trans (enterClosing_sameWindow _ g p none)
    · exact modGroup_sameWindow s g _
  · exact .refl s

theorem notifyPort_sameWindow (s : State) (p k : Port) : SameWindow q s (s.notifyPort p k) := by
  unfold State.notifyPort
  split
  · exact .refl s
  · exact modPort_sameWindow s k fun _ _ => ⟨rfl, rfl⟩

theorem clearNoticesEffect_sameWindow (p : Port) (choice : Byte) (s : State) :
    SameWindow q s (clearNoticesEffect p choice s) := by
  unfold clearNoticesEffect
  split
  · exact .refl s
  · exact modPort_sameWindow s p fun _ _ => ⟨rfl, rfl⟩

theorem missIfQueued_sameWindow (s : State) (r : RecordIndex) (k : Port) : SameWindow q s (s.missIfQueued r k) := by
  unfold State.missIfQueued
  split
  · exact modPort_sameWindow s k fun _ _ => ⟨rfl, rfl⟩
  · exact .refl s

theorem pfeEvent_sameWindow (p : Port) (act : Summary → Pfe → Pfe) (s : State) : SameWindow q s (pfeEvent p act s) :=
  modPfe_sameWindow s p _

theorem byteEventIf_sameWindow (p : Port) (case : Pfe → Bool) (b : Byte) (s : State) :
    SameWindow q s (byteEventIf p case b s) := by
  obtain ⟨_, h⟩ | ⟨_, h⟩ := byteEventIf_cases p case b s <;> rw [h]
  · exact pfeEvent_sameWindow p _ s
  · exact .refl s

theorem noteUnderway_sameWindow (p : Port) (granted : Bool) (s t : State) :
    SameWindow q t (noteUnderway p granted s t) := by
  unfold noteUnderway
  split
  · exact setArbiter_sameWindow t _ _
  · exact .refl t

/-! ### Outcomes of targets -/

theorem setTarget_sameWindow (s : State) (r : RecordIndex) (p : Port) (o : TargetOutcome) (code : Byte) :
    SameWindow q s (s.setTarget r p o code) := modMessage_sameWindow s r fun _ => rfl

theorem dropDelivery_sameWindow (s : State) (r : RecordIndex) (p : Port) : SameWindow q s (s.dropDelivery r p) :=
  modPort_sameWindow s p fun _ _ => ⟨rfl, rfl⟩

theorem dropHeld_sameWindow (s : State) (r : RecordIndex) (p : Port) : SameWindow q s (s.dropHeld r p) :=
  modPort_sameWindow s p fun _ _ => ⟨rfl, rfl⟩

theorem dropHead_sameWindow (s : State) (p : Port) : SameWindow q s (s.dropHead p) :=
  modPort_sameWindow s p fun _ _ => ⟨rfl, rfl⟩

theorem settle_sameWindow (s : State) (r : RecordIndex) (p : Port) (o : TargetOutcome) (code : Byte) :
    SameWindow q s (s.settle r p o code) := by
  rcases settle_cases s r p o code with h | h | h <;> rw [h]
  · exact .refl s
  · exact (dropDelivery_sameWindow s r p).trans (setTarget_sameWindow _ r p o code)
  · exact (dropHeld_sameWindow s r p).trans (setTarget_sameWindow _ r p o code)

theorem fetchConfirmed_sameWindow (p : Port) (h : Handle) (s : State) : SameWindow q s (fetchConfirmed p h s) := by
  unfold fetchConfirmed
  refine ((dropHead_sameWindow s p).trans (modPort_sameWindow _ p ?_)).trans (setTarget_sameWindow _ _ p _ _)
  exact fun _ _ => ⟨rfl, rfl⟩

theorem answer_sameWindow (p : Port) (h : Handle) (o : TargetOutcome) (code : Byte) (s : State) :
    SameWindow q s (answer p h o code s) := by
  unfold answer
  refine (modPort_sameWindow s p ?_).trans (setTarget_sameWindow _ _ p o code)
  exact fun _ _ => ⟨rfl, rfl⟩

theorem stopMessage_sameWindow (s : State) (r : RecordIndex) : SameWindow q s (s.stopMessage r) := by
  have hstopped : SameWindow q s (s.modMessage r fun m => { m with stopped := true }) :=
    modMessage_sameWindow s r fun _ => rfl
  exact hstopped.trans (.foldl (fun t k => settle_sameWindow t r k _ _) allPorts _)

theorem expireTargets_sameWindow (s : State) (r : RecordIndex) : SameWindow q s (s.expireTargets r) :=
  .foldl (fun t k => (missIfQueued_sameWindow t r k).trans (settle_sameWindow _ r k _ _)) allPorts s

theorem releaseCharge_sameWindow (s : State) (m : Message) : SameWindow q s (s.releaseCharge m) :=
  (modGroup_sameWindow s m.group _).trans (freeIfDone_sameWindow _ m.group none)

end SameWindow

/-! ## The close of a record (R103, R113, R114) -/

/-- `d` is the port `c` with the entry of handle `h` gone or DONE with the completion `k`, every other as before. -/
structure ClosesEntry (h : Handle) (k : Completion) (c d : CorePort) : Prop where
  tags    : (d.sends.map SendEntry.tag).Sublist (c.sends.map SendEntry.tag)
  handles : d.sends.filterMap SendEntry.handleOf = (c.sends.filterMap SendEntry.handleOf).filter fun x => x != h
  entries : ∀ e ∈ d.sends, e ∈ c.sends ∨ ∃ tag confirm, .inTransit tag h confirm ∈ c.sends ∧ e = .done tag k
  order   : c.doneOrder.Perm ((c.sends.filter SendEntry.isDone).map SendEntry.tag) →
    d.doneOrder.Perm ((d.sends.filter SendEntry.isDone).map SendEntry.tag)

/-- A port that carries no entry of the handle has none to close. -/
theorem closesEntry_self {h : Handle} (k : Completion) {c : CorePort} (hc : ∀ e ∈ c.sends, e.carries h = false) :
    ClosesEntry h k c c := by
  refine ⟨.refl _, (List.filter_eq_self.2 fun x hx => bne_iff_ne.2 ?_).symm, fun e he => .inl he, id⟩
  rintro rfl
  obtain ⟨tag, confirm, he⟩ := mem_handles_iff.1 hx
  simpa using hc _ he

theorem complete_tags (c : CorePort) (h : Handle) (k : Completion) :
    (c.complete h k).sends.map SendEntry.tag = c.sends.map SendEntry.tag := by
  rw [CorePort.complete, List.map_map]
  exact List.map_congr_left fun e _ => by dsimp only [Function.comp_apply]; split <;> rfl

theorem complete_handles (c : CorePort) (h : Handle) (k : Completion) :
    (c.complete h k).sends.filterMap SendEntry.handleOf =
      (c.sends.filterMap SendEntry.handleOf).filter fun x => x != h := by
  simp only [CorePort.complete]
  induction c.sends with
  | nil => rfl
  | cons e es ih =>
    cases e with
    | done tag k => simpa [List.filterMap_cons] using ih
    | inTransit tag x confirm => by_cases hx : x = h <;> simp [List.filterMap_cons, hx, ih]

/-- The entry that becomes DONE stands last in completion order (R114). -/
theorem complete_order {c : CorePort} (h : Handle) (k : Completion)
    (hc : c.doneOrder.Perm ((c.sends.filter SendEntry.isDone).map SendEntry.tag)) :
    (c.complete h k).doneOrder.Perm (((c.complete h k).sends.filter SendEntry.isDone).map SendEntry.tag) := by
  simp only [CorePort.complete]
  refine (hc.append_right _).trans ?_
  generalize c.sends = sends
  induction sends with
  | nil => exact .nil
  | cons e es ih =>
    cases e with
    | done tag k => simpa [List.filter_cons] using ih.cons tag
    | inTransit tag x confirm =>
      by_cases hx : x = h
      · simpa [List.filter_cons, hx] using List.perm_middle.trans (ih.cons tag)
      · simpa [List.filter_cons, hx] using ih

theorem complete_closes (h : Handle) (k : Completion) (c : CorePort) : ClosesEntry h k c (c.complete h k) := by
  refine ⟨by rw [complete_tags], complete_handles c h k, fun e he => ?_, complete_order h k⟩
  obtain ⟨old, hold, rfl⟩ := List.mem_map.1 he
  split
  · rename_i hcarries
    obtain ⟨tag, confirm, rfl⟩ := carries_iff.1 hcarries
    exact .inr ⟨tag, confirm, hold, rfl⟩
  · exact .inl hold

theorem dropEntry_handles (c : CorePort) (h : Handle) :
    (c.dropEntry h).sends.filterMap SendEntry.handleOf =
      (c.sends.filterMap SendEntry.handleOf).filter fun x => x != h := by
  simp only [CorePort.dropEntry]
  induction c.sends with
  | nil => rfl
  | cons e es ih =>
    cases e with
    | done tag k => simpa [List.filterMap_cons] using ih
    | inTransit tag x confirm => by_cases hx : x = h <;> simp [List.filter_cons, hx, ih]

/-- The entry that goes is IN_TRANSIT, so every DONE one stays (R113). -/
theorem dropEntry_done (c : CorePort) (h : Handle) :
    (c.dropEntry h).sends.filter SendEntry.isDone = c.sends.filter SendEntry.isDone := by
  rw [CorePort.dropEntry, List.filter_filter]
  refine List.filter_congr fun e _ => ?_
  cases e <;> simp

theorem dropEntry_closes (h : Handle) (k : Completion) (c : CorePort) : ClosesEntry h k c (c.dropEntry h) :=
  ⟨List.filter_sublist.map _, dropEntry_handles c h, fun _ he => .inl (List.mem_filter.1 he).1,
    fun hc => by rwa [dropEntry_done]⟩

theorem closeEntry_of_ne {retiring : Option Port} {m : Message} (h : retiring ≠ some m.sender) (s : State)
    (r : RecordIndex) : s.closeEntry retiring r m = s.closeEntry none r m := by
  simp [State.closeEntry, h]

/-- Step 1 of the close at any port but the one being retired (R103). -/
theorem closeEntry_closes {s : State} {q : Port} (hs : Window s q) {r : RecordIndex} {m : Message}
    (hm : s.message r = some m) {retiring : Option Port} (hq : retiring ≠ some q) :
    ClosesEntry (s.handle r) (completionOf m) (s.port q) ((s.closeEntry retiring r m).port q) := by
  by_cases hsender : m.sender = q
  · subst hsender
    rw [closeEntry_of_ne hq, closeEntry_port, if_pos rfl]
    split
    · exact complete_closes _ _ _
    · exact dropEntry_closes _ _ _
  · have hport : (s.closeEntry retiring r m).port q = s.port q := by
      unfold State.closeEntry
      split
      · rfl
      · split <;> exact modPort_port_ne _ _ _ _ hsender
    rw [hport]
    exact closesEntry_self _ (hs.not_carries (by simp [State.sentBy, hm, hsender]))

/-- Where record `r` becomes FREE and its entry is closed, the send list agrees with the records again. -/
theorem Window.close {s t : State} {q : Port} (hs : Window s q) {r : RecordIndex} {m : Message}
    (hm : s.message r = some m)
    (hrecord : ∀ k, t.record k = if r = k then (s.record r).retire else s.record k)
    (hport : ClosesEntry (s.handle r) (completionOf m) (s.port q) (t.port q)) : Window t q := by
  obtain ⟨htags, hhandles, hentries, horder⟩ := hport
  have hmessage {k : RecordIndex} (hk : k ≠ r) : t.message k = s.message k := by
    rw [State.message, hrecord, if_neg hk.symm, State.message]
  have hfree : t.message r = none := by rw [State.message, hrecord, if_pos rfl, TransitRecord.retire]
  have hhandle {k : RecordIndex} (hk : k ≠ r) : t.handle k = s.handle k := by
    rw [State.handle, hrecord, if_neg hk.symm, State.handle]
  have hrecords : (t.recordsOf q).map t.handle =
      ((s.recordsOf q).map s.handle).filter fun x => x != s.handle r := by
    have hleft : t.recordsOf q = (s.recordsOf q).filter fun k => s.handle k != s.handle r := by
      rw [State.recordsOf, State.recordsOf, List.filter_filter]
      refine List.filter_congr fun k _ => ?_
      by_cases hk : k = r
      · subst hk; simp [hfree]
      · simp [hmessage hk, handle_eq_iff, hk]
    rw [List.filter_map, hleft]
    refine List.map_congr_left fun k hk => hhandle ?_
    rintro rfl
    simp at hk
  refine ⟨hs.tags.sublist htags, ?_, fun e he => ?_, horder hs.order⟩
  · rw [hhandles, hrecords]
    exact hs.handles.filter _
  · obtain hold | ⟨tag, confirm, hold, rfl⟩ := hentries e he
    · cases e with
      | done tag k => exact hs.agrees _ hold
      | inTransit tag x confirm =>
        have hkept : x ∈ (t.port q).sends.filterMap SendEntry.handleOf := mem_handles_iff.2 ⟨tag, confirm, he⟩
        rw [hhandles, List.mem_filter, bne_iff_ne, (hs.inTransit hold).2, ne_eq, handle_eq_iff] at hkept
        have hagrees := hs.agrees _ hold
        rwa [State.entryAgrees, ← hmessage hkept.2] at hagrees
    · have hagrees := hs.agrees _ hold
      simp only [State.entryAgrees] at hagrees
      have hr : (s.handle r).index = r := rfl
      rw [hr, hm, Option.any_some, Bool.and_eq_true] at hagrees
      exact hagrees.1

/-- A close keeps the law at every port but the one being retired (R103, R113). -/
theorem closeRecord_window {s : State} {q : Port} (hs : Window s q) {r : RecordIndex} {m : Message}
    (hm : s.message r = some m) {retiring : Option Port} (hq : retiring ≠ some q) :
    Window (s.closeRecord retiring r) q := by
  refine hs.close hm (closeRecord_record hm retiring) ?_
  have hsame : SameWindow q (s.closeEntry retiring r m)
      (((s.closeEntry retiring r m).freeChain m.chain).releaseCharge m) :=
    (setFreeList_sameWindow _ _).trans (releaseCharge_sameWindow _ m)
  obtain ⟨htags, hhandles, hentries, horder⟩ := closeEntry_closes hs hm hq
  rw [closeRecord_some hm, modRecord_port]
  exact ⟨hsame.sends ▸ htags, hsame.sends ▸ hhandles, hsame.sends ▸ hentries,
    by rw [hsame.sends, hsame.doneOrder]; exact horder⟩

theorem closeIfSettled_window {s : State} {q : Port} (hs : Window s q) (r : RecordIndex) {retiring : Option Port}
    (hq : retiring ≠ some q) : Window (s.closeIfSettled retiring r) q := by
  obtain h | ⟨m, hm, -, h⟩ := closeIfSettled_cases s retiring r <;> rw [h]
  · exact hs
  · exact closeRecord_window hs hm hq

theorem withdraw_window {s : State} {q : Port} (hs : Window s q) (r : RecordIndex) (p : Port)
    {retiring : Option Port} (hq : retiring ≠ some q) : Window (s.withdraw retiring r p) q := by
  unfold State.withdraw
  split
  · exact closeIfSettled_window ((settle_sameWindow s r p _ _).window hs) r hq
  · exact hs

theorem withdrawAll_window {s : State} {q : Port} (hs : Window s q) (p : Port) (rs : List RecordIndex)
    {retiring : Option Port} (hq : retiring ≠ some q) : Window (s.withdrawAll retiring p rs) q :=
  List.foldlRecOn (motive := fun t => Window t q) rs _ hs fun _ ht r _ => withdraw_window ht r p hq

/-! ## SEND and TAKE (R55, R112, R117) -/

/-- A check of R42 that has passed: no entry of the sender's list has the tag (R112). -/
theorem tag_of_sendChecks {p : Port} {g tag flags len dl : Byte} {s : State}
    (hpass : firstFail (sendChecks p g tag flags len dl s) = none) : tag ∉ (s.port p).sends.map SendEntry.tag := by
  have htag := check_passed hpass (b := (s.port p).sends.any fun e => e.tag == tag) (code := .duplicateTag)
    (by simp [sendChecks])
  rwa [any_tag_eq, decide_eq_false_iff_not] at htag

section Commit

variable {p : Port} {g tag flags len dl : Byte} {r : RecordIndex} {s : State} (hfree : s.message r = none)

include hfree

theorem committed_recordsOf (q : Port) :
    ((committed p g tag flags len dl r s).recordsOf q).Perm
      (if q = p then r :: s.recordsOf q else s.recordsOf q) := by
  have hnew (k : RecordIndex) : k ∈ (committed p g tag flags len dl r s).recordsOf q ↔
      (k = r ∧ q = p) ∨ k ∈ s.recordsOf q := by
    rw [mem_recordsOf, mem_recordsOf, State.sentBy, State.sentBy, State.message, committed_record]
    by_cases hk : r = k
    · subst hk
      simpa [hfree] using eq_comm
    · rw [if_neg hk]
      simp [Ne.symm hk, State.message]
  have hold : r ∉ s.recordsOf q := by simp [mem_recordsOf, State.sentBy, hfree]
  have hnodup (u : State) : (u.recordsOf q).Nodup := (List.nodup_finRange 24).filter _
  split
  · rename_i hq
    refine (List.perm_ext_iff_of_nodup (hnodup _) (List.nodup_cons.2 ⟨hold, hnodup s⟩)).2 fun k => ?_
    rw [hnew, List.mem_cons, and_iff_left hq]
  · rename_i hq
    refine (List.perm_ext_iff_of_nodup (hnodup _) (hnodup s)).2 fun k => ?_
    rw [hnew, or_iff_right fun h => hq h.2]

/-- An entry that agrees names no FREE record, so that the commit leaves it. -/
theorem committed_entryAgrees {e : SendEntry} (he : s.entryAgrees e = true) :
    (committed p g tag flags len dl r s).entryAgrees e = true := by
  cases e with
  | done tag k => exact he
  | inTransit t h c =>
    have hne : r ≠ h.index := by
      rintro rfl
      simp [State.entryAgrees, hfree] at he
    simp only [State.entryAgrees] at he ⊢
    rwa [State.message, committed_record, if_neg hne]

/-- A commit gives its record an entry in the sender's list, IN_TRANSIT under a tag not in use (R55, R112). -/
theorem committed_window (hpass : firstFail (sendChecks p g tag flags len dl s) = none) {q : Port}
    (hs : Window s q) : Window (committed p g tag flags len dl r s) q := by
  obtain ⟨htags, hhandles, hagrees, horder⟩ := hs
  have hhandle : (committed p g tag flags len dl r s).handle = s.handle := by
    funext k
    rw [State.handle, committed_record, State.handle]
    split
    · rename_i h; subst h; rfl
    · rfl
  have hrecords := (committed_recordsOf (p := p) (g := g) (tag := tag) (flags := flags) (len := len) (dl := dl)
    hfree q).map s.handle
  by_cases hq : q = p
  · subst hq
    have hsends := committed_sends q g tag flags len dl r s q
    rw [if_pos rfl] at hsends hrecords
    refine ⟨?_, ?_, fun e he => ?_, ?_⟩
    · rw [hsends, List.map_append]
      exact (List.perm_append_singleton tag _).nodup_iff.2 (List.nodup_cons.2 ⟨tag_of_sendChecks hpass, htags⟩)
    · rw [hsends, hhandle, List.filterMap_append]
      exact (List.perm_append_singleton (s.handle r) _).trans ((hhandles.cons _).trans hrecords.symm)
    · rw [hsends, List.mem_append, List.mem_singleton] at he
      obtain he | rfl := he
      · exact committed_entryAgrees hfree (hagrees e he)
      · have hr : (s.handle r).index = r := rfl
        rw [State.entryAgrees, hr, committed_message]
        simp [flagConfirm]
    · rw [hsends, committed_doneOrder, List.filter_append]
      simpa using horder
  · have hsends := committed_sends p g tag flags len dl r s q
    rw [if_neg hq] at hsends hrecords
    refine ⟨?_, ?_, fun e he => ?_, ?_⟩
    · rwa [hsends]
    · rw [hsends, hhandle]
      exact hhandles.trans hrecords.symm
    · exact committed_entryAgrees hfree (hagrees e (hsends ▸ he))
    · rwa [hsends, committed_doneOrder]

end Commit

/-- The entry that TAKE removes is DONE, so every IN_TRANSIT one stays (R117). -/
theorem dropDone_handles (c : CorePort) (tag : Byte) :
    (c.dropDone tag).sends.filterMap SendEntry.handleOf = c.sends.filterMap SendEntry.handleOf := by
  simp only [CorePort.dropDone, Bool.not_and]
  induction c.sends with
  | nil => rfl
  | cons e es ih =>
    cases e with
    | inTransit t h confirm => simp [ih]
    | done t k => by_cases ht : t = tag <;> simp [List.filterMap_cons, ht, ih]

theorem dropDone_order {c : CorePort} (tag : Byte)
    (hc : c.doneOrder.Perm ((c.sends.filter SendEntry.isDone).map SendEntry.tag)) :
    (c.dropDone tag).doneOrder.Perm (((c.dropDone tag).sends.filter SendEntry.isDone).map SendEntry.tag) := by
  have hsame : (c.dropDone tag).sends.filter SendEntry.isDone =
      (c.sends.filter SendEntry.isDone).filter fun e => e.tag != tag := by
    rw [CorePort.dropDone, List.filter_filter, List.filter_filter]
    refine List.filter_congr fun e _ => ?_
    cases e <;> simp [bne]
  have hfilter := hc.filter fun t => t != tag
  rw [List.filter_map] at hfilter
  rw [hsame]
  exact hfilter

theorem dropDone_window {s : State} {q : Port} (hs : Window s q) (p : Port) (tag : Byte) :
    Window (s.modPort p fun c => c.dropDone tag) q := by
  by_cases hq : p = q
  · subst hq
    obtain ⟨htags, hhandles, hagrees, horder⟩ := hs
    refine ⟨?_, ?_, fun e he => ?_, ?_⟩ <;> rw [modPort_port_same] at *
    · exact htags.sublist (List.filter_sublist.map _)
    · rw [dropDone_handles]
      exact hhandles
    · exact hagrees e (List.mem_filter.1 he).1
    · exact dropDone_order tag horder
  · exact (modPort_sameWindow_of_ne s _ hq).window hs

/-! ## Withdrawals end messages and begin none (R76, R80, R91) -/

theorem closeIfSettled_message {s : State} {retiring : Option Port} {r k : RecordIndex} {m : Message}
    (h : (s.closeIfSettled retiring r).message k = some m) : s.message k = some m := by
  obtain hsame | ⟨m', hm', -, hclose⟩ := closeIfSettled_cases s retiring r
  · rwa [hsame] at h
  · rw [hclose, State.message, closeRecord_record hm'] at h
    split at h
    · cases h
    · exact h

theorem isOpenTarget_iff {s : State} {r : RecordIndex} {p : Port} :
    s.isOpenTarget r p = true ↔
      ∃ m, s.message r = some m ∧ (m.outcomeOf p = some .queued ∨ m.outcomeOf p = some .held) := by
  simp only [State.isOpenTarget, Option.any_eq_true, isOpen_iff]
  refine exists_congr fun m => and_congr_right fun _ => ⟨?_, ?_⟩
  · rintro ⟨o, ho, rfl | rfl⟩
    · exact .inl ho
    · exact .inr ho
  · rintro (h | h)
    · exact ⟨_, h, .inl rfl⟩
    · exact ⟨_, h, .inr rfl⟩

/-- A message after a withdrawal was there before, with the withdrawn target open. -/
theorem withdraw_message {s : State} {retiring : Option Port} {r k : RecordIndex} {p : Port} {m : Message}
    (hopen : s.isOpenTarget r p = true) (h : (s.withdraw retiring r p).message k = some m) :
    ∃ m', s.message k = some m' ∧ m = if k = r then m'.setTarget p .withdrawn 0 else m' := by
  rw [State.withdraw, if_pos hopen] at h
  have hsettled := closeIfSettled_message h
  by_cases hk : k = r
  · subst hk
    obtain ⟨m', hm', hopen⟩ := isOpenTarget_iff.1 hopen
    rw [settle_message_of_open hm' hopen, Option.some.injEq] at hsettled
    exact ⟨m', hm', by rw [if_pos rfl, hsettled]⟩
  · rw [settle_message_ne s p _ _ hk] at hsettled
    exact ⟨m, hsettled, by rw [if_neg hk]⟩

theorem withdraw_sentBy {s : State} {retiring : Option Port} {r k : RecordIndex} {p q : Port}
    (h : (s.withdraw retiring r p).sentBy k q = true) : s.sentBy k q = true := by
  cases hopen : s.isOpenTarget r p with
  | false => rwa [State.withdraw, hopen, if_neg Bool.false_ne_true] at h
  | true =>
    obtain ⟨m, hm, hsender⟩ := sentBy_iff.1 h
    obtain ⟨m', hm', rfl⟩ := withdraw_message hopen hm
    refine sentBy_iff.2 ⟨m', hm', ?_⟩
    split at hsender <;> exact hsender

/-- A withdrawal opens no target, and leaves its own target final. -/
theorem withdraw_isOpenTarget {s : State} {retiring : Option Port} {r k : RecordIndex} {p q : Port}
    (h : (s.withdraw retiring r p).isOpenTarget k q = true) : s.isOpenTarget k q = true ∧ ¬ (k = r ∧ q = p) := by
  cases hopen : s.isOpenTarget r p with
  | false =>
    rw [State.withdraw, hopen, if_neg Bool.false_ne_true] at h
    refine ⟨h, ?_⟩
    rintro ⟨rfl, rfl⟩
    cases hopen.symm.trans h
  | true =>
    obtain ⟨m, hm, houtcome⟩ := isOpenTarget_iff.1 h
    obtain ⟨m', hm', rfl⟩ := withdraw_message hopen hm
    by_cases hk : k = r
    · by_cases hq : q = p
      · cases hold : m'.outcomeOf q <;> simp [hk, hq, outcomeOf_setTarget, hq ▸ hold] at houtcome
      · simp only [if_pos hk, outcomeOf_setTarget, if_neg hq] at houtcome
        exact ⟨isOpenTarget_iff.2 ⟨m', hm', houtcome⟩, fun h => hq h.2⟩
    · rw [if_neg hk] at houtcome
      exact ⟨isOpenTarget_iff.2 ⟨m', hm', houtcome⟩, fun h => hk h.1⟩

theorem drains_handleLaw {s t : State} (h : Drains s t) (hs : HandleLaw s) : HandleLaw t :=
  h.keeps (fun _ _ k => (SameRoutes.of_traffic k).handleLaw) withdraw_handleLaw hs

theorem drains_sentBy {s t : State} (h : Drains s t) {r : RecordIndex} {p : Port} (hs : s.sentBy r p = false) :
    t.sentBy r p = false := by
  refine h.keeps (P := fun u => u.sentBy r p = false) (fun u v k hu => ?_) (fun u _ _ _ hu => ?_) hs
  · rwa [State.sentBy, k.message]
  · exact Bool.eq_false_iff.2 fun hv => by rw [withdraw_sentBy hv] at hu; cases hu

theorem drains_isOpenTarget {s t : State} (h : Drains s t) {r : RecordIndex} {p : Port}
    (hs : s.isOpenTarget r p = false) : t.isOpenTarget r p = false := by
  refine h.keeps (P := fun u => u.isOpenTarget r p = false) (fun u v k hu => ?_) (fun u _ _ _ hu => ?_) hs
  · rwa [State.isOpenTarget, k.message]
  · exact Bool.eq_false_iff.2 fun hv => by rw [(withdraw_isOpenTarget hv).1] at hu; cases hu

/-- Once every port of a list has been withdrawn from a record, none of them is an open target of it. -/
theorem foldl_withdraw_isOpenTarget (retiring : Option Port) (r : RecordIndex) {qs : List Port} {q : Port}
    (hq : q ∈ qs) (s : State) : (qs.foldl (fun t k => t.withdraw retiring r k) s).isOpenTarget r q = false := by
  induction qs generalizing s with
  | nil => cases hq
  | cons k ks ih =>
    obtain rfl | hq := List.mem_cons.1 hq
    · have hfinal : (s.withdraw retiring r q).isOpenTarget r q = false :=
        Bool.eq_false_iff.2 fun h => (withdraw_isOpenTarget h).2 ⟨rfl, rfl⟩
      exact drains_isOpenTarget (.foldl (fun t j => .withdraw t retiring r j) ks _) hfinal
    · exact ih hq _

/-- A record with no open target is FREE (R91). -/
theorem message_of_not_isOpenTarget {s : State} (hs : HandleLaw s) {r : RecordIndex}
    (h : ∀ q, s.isOpenTarget r q = false) : s.message r = none := by
  obtain ⟨hagrees, hopen⟩ := handleLaw_iff.1 hs
  refine Option.eq_none_iff_forall_not_mem.2 fun m hm => ?_
  obtain ⟨x, hx, hxopen⟩ := List.any_eq_true.1 (hopen r m (by simp) hm)
  have houtcome := outcomeOf_of_mem (hagrees.sound r m hm).ascending hx
  have htarget : s.isOpenTarget r x.port = true := by
    rw [State.isOpenTarget, Option.any_eq_true]
    exact ⟨m, hm, by rwa [houtcome, Option.any_some]⟩
  rw [h] at htarget
  cases htarget

/-! ## Retirement (R80, R120, R133 to R137) -/

/-- A message of the retiring port ends, since each of its open targets is withdrawn (R80). -/
theorem endMessage_sentBy {s : State} (hs : HandleLaw s) (p : Port) (r : RecordIndex) :
    (State.endMessage p s r).sentBy r p = false := by
  have hlaw := drains_handleLaw (endMessage_drains p s r) hs
  cases hsent : s.sentBy r p with
  | false => exact drains_sentBy (endMessage_drains p s r) hsent
  | true =>
    have hend : State.endMessage p s r = allPorts.foldl (fun t q => t.withdraw (some p) r q) s := if_pos hsent
    rw [hend] at hlaw ⊢
    rw [State.sentBy, message_of_not_isOpenTarget hlaw fun q =>
      foldl_withdraw_isOpenTarget (some p) r (List.mem_finRange q) s]
    rfl

theorem foldl_endMessage_sentBy (p : Port) {rs : List RecordIndex} {r : RecordIndex} (hr : r ∈ rs) {s : State}
    (hs : HandleLaw s) : (rs.foldl (State.endMessage p) s).sentBy r p = false := by
  induction rs generalizing s with
  | nil => cases hr
  | cons k ks ih =>
    obtain rfl | hr := List.mem_cons.1 hr
    · exact drains_sentBy (.foldl (endMessage_drains p) ks _) (endMessage_sentBy hs p r)
    · exact ih hr (drains_handleLaw (endMessage_drains p s k) hs)

/-- The tables once the retirement of port `p` has withdrawn it and ended its groups: steps 1 to 3 (R134 to R136). -/
abbrev withdrawnState (s : State) (p : Port) : State :=
  ((s.retireTargets p).retireMemberships p).retireAnchorships p

theorem withdrawnState_handleLaw {s : State} (hs : HandleLaw s) (p : Port) : HandleLaw (withdrawnState s p) := by
  have htargets : Drains s (s.retireTargets p) :=
    (withdrawAll_drains s (some p) p _).trans (withdrawAll_drains _ (some p) p _)
  have hgroups : SameTraffic (s.retireTargets p) (withdrawnState s p) :=
    (mapGroups_sameTraffic _ _).trans (.foldl (loseAnchor_sameTraffic p) allGroups _)
  exact drains_handleLaw (htargets.trans (.traffic hgroups)) hs

/-- The retired port is left with an empty send list and no message in flight (R120, R137). -/
theorem retire_window_self {s : State} (hs : HandleLaw s) (p : Port) (final : PortState) :
    Window (s.retire p final) p := by
  have hlast (t : State) (r : RecordIndex) : ((t.retireSends p).setPortState p final).sentBy r p = t.sentBy r p := rfl
  have hnone (r : RecordIndex) : (s.retire p final).sentBy r p = false := by
    rw [State.retire, hlast]
    exact foldl_endMessage_sentBy p (List.mem_finRange r) (withdrawnState_handleLaw hs p)
  have hrecords : (s.retire p final).recordsOf p = [] := List.filter_eq_nil_iff.2 fun r _ => by
    rw [← State.sentBy, hnone]; exact Bool.false_ne_true
  have hsends : ((s.retire p final).port p).sends = [] := by
    simp [State.retire, State.setPortState, State.retireSends]
  have hdone : ((s.retire p final).port p).doneOrder = [] := by
    simp [State.retire, State.setPortState, State.retireSends]
  refine ⟨?_, ?_, ?_, ?_⟩
  · simp [hsends]
  · simp [hsends, hrecords]
  · simp [hsends]
  · simp [hsends, hdone]

/-- The send lists of the other ports follow the closes of a retirement (R138). -/
theorem retire_window_other {s : State} {p q : Port} (hpq : p ≠ q) (hs : Window s q) (final : PortState) :
    Window (s.retire p final) q := by
  have hq : some p ≠ some q := fun h => hpq (Option.some.inj h)
  have htargets : Window (s.retireTargets p) q := withdrawAll_window (withdrawAll_window hs p _ hq) p _ hq
  have hgroups : SameWindow q (s.retireTargets p) (withdrawnState s p) :=
    (mapGroups_sameWindow _ _).trans (.foldl (loseAnchor_sameWindow p) allGroups _)
  have hmessages : Window ((withdrawnState s p).retireMessages p) q := by
    refine List.foldlRecOn (motive := fun t => Window t q) allRecords _ (hgroups.window htargets) fun t ht r _ => ?_
    unfold State.endMessage
    split
    · exact List.foldlRecOn (motive := fun t => Window t q) allPorts _ ht fun u hu k _ => withdraw_window hu r k hq
    · exact ht
  exact ((modPort_sameWindow_of_ne _ _ hpq).trans (setPortState_sameWindow _ p final)).window hmessages

theorem retire_window {s : State} (hh : HandleLaw s) {q : Port} (hs : Window s q) (p : Port) (final : PortState) :
    Window (s.retire p final) q := by
  by_cases hpq : p = q
  · subst hpq; exact retire_window_self hh p final
  · exact retire_window_other hpq hs final

theorem presenceEffect_window {s : State} (hh : HandleLaw s) {q : Port} (hs : Window s q) (p : Port)
    (lostSeen present : Bool) : Window (presenceEffect p lostSeen present s) q := by
  unfold presenceEffect
  split
  · split
    · exact retire_window hh hs p _
    · exact (setPortState_sameWindow s p _).window hs
  · split
    · exact (setPortState_sameWindow s p _).window hs
    · exact hs

/-! ## The effects of the other commands on a send list (R103) -/

theorem fetchUnconfirmed_window {s : State} {q : Port} (hs : Window s q) (p : Port) (h : Handle) :
    Window (fetchUnconfirmed p h s) q :=
  closeIfSettled_window (((dropHead_sameWindow s p).trans (setTarget_sameWindow _ h.index p .fetched 0)).window hs)
    h.index (by simp)

theorem ackEffect_window {s : State} {q : Port} (hs : Window s q) (p : Port) (code : Byte) (h : Handle) :
    Window (ackEffect p code h s) q :=
  closeIfSettled_window ((answer_sameWindow p h .acked code s).window hs) h.index (by simp)

theorem nackEffect_window {s : State} {q : Port} (hs : Window s q) (p : Port) (code : Byte) (h : Handle) :
    Window (nackEffect p code h s) q := by
  refine closeIfSettled_window (((answer_sameWindow p h .refused code s).trans ?_).window hs) h.index (by simp)
  split
  · exact stopMessage_sameWindow _ _
  · exact .refl _

theorem expire_window {s : State} {q : Port} (hs : Window s q) (r : RecordIndex) : Window (s.expire r) q :=
  closeIfSettled_window ((expireTargets_sameWindow s r).window hs) r (by simp)

theorem withdrawGroup_window {s : State} {q : Port} (hs : Window s q) (p : Port) (g : GroupNo) :
    Window (s.withdrawGroup p g) q := withdrawAll_window hs p _ (by simp)

/-! ## The steps -/

/-- Whatever tables the effect of a command gives, port q's send list agrees with their records. -/
def EffectKeepsWindow (q : Port) (effect : CoreResult) : Prop := ∀ t reply, effect = .ok (t, reply) → Window t q

section Steps

variable {q : Port} {s : State}

theorem EffectKeepsWindow.ok {t : State} (reply : List Byte) (h : Window t q) :
    EffectKeepsWindow q (.ok (t, reply)) := by
  intro u _ hu
  cases hu
  exact h

theorem EffectKeepsWindow.error (f : Fault) : EffectKeepsWindow q (.error f) := by
  intro u _ hu
  cases hu

/-- A refusal changes no table (R171); the effect follows where every check passes. -/
theorem EffectKeepsWindow.judged {effect : CoreResult} {cs : List (Bool × ResultCode)} (hs : Window s q)
    (h : firstFail cs = none → EffectKeepsWindow q effect) : EffectKeepsWindow q (judged s cs effect) := by
  intro t reply ht
  obtain ⟨_, _, rfl, _⟩ | ⟨hpass, he⟩ := judged_cases ht
  · exact hs
  · exact h hpass t reply he

theorem sendEffect_window (hs : Window s q) {p : Port} {g tag flags len dl : Byte}
    (hpass : firstFail (sendChecks p g tag flags len dl s) = none) :
    EffectKeepsWindow q (sendEffect p g tag flags len dl s) := by
  unfold sendEffect
  split
  · exact .error _
  · rename_i r hr
    split
    · exact .error _
    · exact .ok _ (closeIfSettled_window (committed_window (message_of_freeRecord hr) hpass hs) r (by simp))

theorem fetchEffect_window (hs : Window s q) (p : Port) : EffectKeepsWindow q (fetchEffect p s) := by
  unfold fetchEffect
  split
  · exact .ok _ hs
  · split
    · exact .error _
    · refine .ok _ ?_
      split
      · exact (fetchConfirmed_sameWindow p _ s).window hs
      · exact fetchUnconfirmed_window hs p _

theorem readEffect_window (hs : Window s q) (p : Port) (index generation offset count : Byte) :
    EffectKeepsWindow q (readEffect p index generation offset count s) := by
  unfold readEffect
  split
  · exact .error _
  · exact .ok _ hs

theorem answerEffect_window (hs : Window s q) {p : Port} {index generation : Byte} {effect : Handle → State → State}
    (h : ∀ k, Window (effect k s) q) : EffectKeepsWindow q (answerEffect p index generation effect s) := by
  unfold answerEffect
  split
  · exact .ok _ hs
  · exact .ok _ (h _)

theorem takeEffect_window (hs : Window s q) (p : Port) : EffectKeepsWindow q (takeEffect p s) := by
  unfold takeEffect
  split
  · exact .ok _ hs
  · exact .ok _ (dropDone_window hs p _)

/-- The taking of a command slot keeps the law where the command's effect does. -/
theorem takeCommand_window (hs : Window s q) (p : Port) (req : Request) {effect : State → CoreResult}
    (h : EffectKeepsWindow q (effect s)) : OnNext (takeCommand p req effect s) fun t => Window t q := by
  intro u hu
  obtain ⟨_, rfl⟩ | ⟨_, t, reply, he, rfl⟩ := takeCommand_cases hu
  · exact hs
  · exact (SameWindow.of_sameTables (afterTaking_sameTables p t reply)).window (h t reply he)

/-- The taking of a command that is judged and, where it passes, answered OK alone. -/
theorem takeOkAlone_window (hs : Window s q) (p : Port) {req : Request} {checks : State → List (Bool × ResultCode)}
    {effect : State → State} (h : Window (effect s) q) :
    OnNext (takeCommand p req (fun s => judged s (checks s) (okAlone (effect s))) s) fun t => Window t q :=
  takeCommand_window hs p req (.judged hs fun _ => .ok _ h)

theorem execSend_window (hs : Window s q) (p : Port) (g tag flags len dl : Byte) :
    OnNext (execSend p g tag flags len dl s) fun t => Window t q := by
  refine takeCommand_window hs p _ fun t reply ht => ?_
  obtain ⟨u, hu, rfl⟩ := execSend_effect ht
  exact (modPfe_sameWindow u p _).window (EffectKeepsWindow.judged hs (sendEffect_window hs) _ _ hu)

theorem execTickTaking_window (hs : Window s q) : OnNext (execTickTaking s) fun t => Window t q := by
  unfold execTickTaking
  split
  · exact onNext_next (((((setTickCount_sameWindow s 0).trans (lowerRemaining_sameWindow _ _)).trans
      (setArbiter_sameWindow _ _ _)).trans (.of_sameTables (endTick_sameTables _))).window hs)
  · exact onNext_next hs

theorem execRecordExpiry_window (hs : Window s q) (r : RecordIndex) :
    OnNext (execRecordExpiry r s) fun t => Window t q := by
  unfold execRecordExpiry
  split
  · exact onNext_next ((SameWindow.of_sameTables (endTick_sameTables _)).window (expire_window hs r))
  · exact onNext_next hs

theorem execPresenceReport_window (hh : HandleLaw s) (hs : Window s q) (p : Port) :
    OnNext (execPresenceReport p s) fun t => Window t q := by
  unfold execPresenceReport
  split
  · have hread := modPfe_sameTraffic s p Pfe.takePresence
    have heffect := presenceEffect_window ((SameRoutes.of_traffic hread).handleLaw hh)
      ((modPfe_sameWindow s p Pfe.takePresence).window hs) p (s.pfe p).presence.lostSeen (s.pfe p).presence.level
    exact onNext_next (((setArbiter_sameWindow _ _ _).trans (.of_sameTables (refresh_sameTables _))).window heffect)
  · exact onNext_next hs

theorem window_reset (q : Port) : Window State.reset q := by
  have hmessage (r : RecordIndex) : State.reset.message r = none := by rw [State.message, reset_record]
  have hrecords : State.reset.recordsOf q = [] := List.filter_eq_nil_iff.2 fun r _ => by simp [hmessage]
  refine ⟨?_, ?_, ?_, ?_⟩ <;> simp [reset_port, CorePort.reset, hrecords]

theorem execHubReset_window (s : State) (q : Port) : OnNext (execHubReset s) fun t => Window t q := by
  have hsame : SameWindow q State.reset ((State.reset.setPool s.pool).setPending s.pending) :=
    .of_record (fun _ => rfl) rfl rfl
  exact onNext_next ((hsame.trans (mapPfes_sameWindow _ _)).window (window_reset q))

/-- Every command keeps each send list in agreement with the records. -/
theorem exec_window (i : Instr) (hh : HandleLaw s) (hs : Window s q) : OnNext (exec i s) fun t => Window t q := by
  cases i with dsimp only [exec]
  | hubReset => exact execHubReset_window s q
  | tick prs => exact onNext_next (((setTickCount_sameWindow s _).trans (mapPfes_sameWindow _ _)).window hs)
  | idleSelect p | select p _ | deselect p | byteCompletion p _ =>
    exact onNext_next ((pfeEvent_sameWindow p _ s).window hs)
  | unknownCommand p _ | commandPost p _ | nop p | status p | clearFault p | setMask p _ =>
    exact onNext_next ((byteEventIf_sameWindow p _ _ s).window hs)
  | attach p =>
    exact takeOkAlone_window hs p ((attachEffect_sameWindow s p).window hs)
  | detach p => exact takeOkAlone_window hs p (retire_window hh hs p .detached)
  | clearNotices p choice => exact takeOkAlone_window hs p ((clearNoticesEffect_sameWindow p choice s).window hs)
  | openGroup p _ _ _ _ _ | resize p _ _ =>
    exact takeOkAlone_window hs p (((setReserved_sameWindow s _).trans (modGroup_sameWindow _ _ _)).window hs)
  | close p g => exact takeOkAlone_window hs p ((enterClosing_sameWindow s _ p _).window hs)
  | join p g => exact takeOkAlone_window hs p ((modGroup_sameWindow s _ _).window hs)
  | leave p g => exact takeOkAlone_window hs p (withdrawGroup_window ((modGroup_sameWindow s _ _).window hs) p _)
  | enrol p g port =>
    exact takeOkAlone_window hs p (((modGroup_sameWindow s _ _).trans (notifyPort_sameWindow _ p _)).window hs)
  | expel p g port =>
    exact takeOkAlone_window hs p (withdrawGroup_window
      (((modGroup_sameWindow s _ _).trans (notifyPort_sameWindow _ p _)).window hs) _ _)
  | groupInfo p _ | roster p | poolInfo p => exact takeCommand_window hs p _ (.judged hs fun _ => .ok _ hs)
  | send p g tag flags len dl => exact execSend_window hs p g tag flags len dl
  | fetch p => exact takeCommand_window hs p _ (.judged hs fun _ => fetchEffect_window hs p)
  | read p index generation offset count =>
    exact takeCommand_window hs p _ (.judged hs fun _ => readEffect_window hs p index generation offset count)
  | ack p index generation code =>
    exact takeCommand_window hs p _ (.judged hs fun _ => answerEffect_window hs (ackEffect_window hs p code))
  | nack p index generation code =>
    exact takeCommand_window hs p _ (.judged hs fun _ => answerEffect_window hs (nackEffect_window hs p code))
  | take p => exact takeCommand_window hs p _ (.judged hs fun _ => takeEffect_window hs p)
  | tickTaking => exact execTickTaking_window hs
  | recordExpiry r => exact execRecordExpiry_window hs r
  | presenceReport p => exact execPresenceReport_window hh hs p
  | _ => -- RECALL, whose constructor has the name of a Mathlib command
    exact onNext_next (((byteEventIf_sameWindow _ _ _ s).trans (noteUnderway_sameWindow _ _ _ _)).window hs)

end Steps

/-- Settles O56: a send list changes by SEND, TAKE, the close of a record and retirement alone, each of which follows
the records; a retirement leaves no message of its port, since every message has an open target. -/
theorem everyStepKeepsWindowLaw : Obligations.EveryStepKeepsWindowLaw := by
  intro s hh hw t ht
  refine ⟨everyStepKeepsHandleLaw s hh t ht, windowLaw_iff.2 fun q => ?_⟩
  have hs := windowLaw_iff.1 hw q
  unfold step at ht
  cases hpending : s.pending with
  | nil =>
    rw [hpending] at ht
    exact onNext_next (P := fun u => Window u q) hs t ht
  | cons i rest =>
    rw [hpending] at ht
    exact exec_window i ((SameRoutes.of_traffic (setPending_sameTraffic s rest)).handleLaw hh)
      ((setPending_sameWindow s rest).window hs) t ht

/-! ## TAKE answers with the first completion (R114, R117, R174) -/

/-- The DONE entry of a tag is found where no entry before it has the tag. -/
theorem doneWith_eq {c : CorePort} {tag : Byte} {before after : List SendEntry} {k : Completion}
    (hsends : c.sends = before ++ .done tag k :: after) (hbefore : ∀ e ∈ before, e.tag ≠ tag) :
    c.doneWith tag = some k := by
  refine List.findSome?_eq_some_iff.2 ⟨before, .done tag k, after, hsends, if_pos rfl, fun e he => ?_⟩
  cases e with
  | inTransit t h confirm => rfl
  | done t k => exact if_neg (hbefore _ he)

/-- TAKE removes the DONE entry of the tag alone, and its place in the completion order (R117). -/
theorem dropDone_eq {c : CorePort} {tag : Byte} {later : List Byte} {before after : List SendEntry} {k : Completion}
    (hsends : c.sends = before ++ .done tag k :: after) (hother : ∀ e ∈ before ++ after, e.tag ≠ tag)
    (horder : c.doneOrder = tag :: later) (hlater : tag ∉ later) :
    c.dropDone tag = { c with sends := before ++ after, doneOrder := later } := by
  have hkept (es : List SendEntry) (h : ∀ e ∈ es, e.tag ≠ tag) :
      es.filter (fun e => !(e.isDone && e.tag == tag)) = es :=
    List.filter_eq_self.2 fun e he => by simp [h e he]
  have hbefore := hkept before fun e he => hother e (List.mem_append_left _ he)
  have hafter := hkept after fun e he => hother e (List.mem_append_right _ he)
  have hdone : later.filter (fun t => t != tag) = later :=
    List.filter_eq_self.2 fun t ht => bne_iff_ne.2 fun h => hlater (h ▸ ht)
  rw [CorePort.dropDone, hsends, horder, List.filter_append, hbefore, List.filter_cons, List.filter_cons, hafter, hdone]
  simp

/-- No check of R116 fails for an ACTIVE port with a completion. -/
theorem takeChecks_pass {s : State} {p : Port} {out : Byte × Completion} (hactive : (s.port p).portState = .active)
    (hfirst : (s.port p).firstDone = some out) : firstFail (takeChecks p s) = none := by
  refine firstFail_none.2 ?_
  simp only [takeChecks, List.forall_mem_cons, hfirst]
  exact ⟨by simp [State.notActive, hactive], rfl, by simp⟩

/-- Settles O44: the completion order names the entry, no other has its tag, and the reply is the model's. -/
theorem takeReturnsFirstCompletion : Obligations.TakeReturnsFirstCompletion := by
  intro s p tag later before after k htakes hactive horder hsends htags _ hlater
  have hother : ∀ e ∈ before ++ after, e.tag ≠ tag := by
    rw [hsends, (List.perm_middle.map SendEntry.tag).nodup_iff, List.map_cons, List.nodup_cons] at htags
    exact fun e he h => htags.1 (List.mem_map.2 ⟨e, he, h⟩)
  have hfirst : (s.port p).firstDone = some (tag, k) := by
    rw [CorePort.firstDone, horder, List.findSome?_cons,
      doneWith_eq hsends fun e he => hother e (List.mem_append_left _ he)]
    rfl
  have heffect : takeEffect p s = .ok (s.modPort p fun c => c.dropDone tag, takeReply k) := by
    rw [takeEffect, hfirst]
  have hpass := takeChecks_pass hactive hfirst
  refine ⟨_, takeCommand_passes (checks := takeChecks p) htakes hpass heffect, ?_, ?_, fun q hq => ?_, ?_⟩
  · exact answeredFrom_afterTaking rfl (fun _ _ => rfl) rfl rfl
  · rw [afterTaking_port, modPort_port_same, dropDone_eq hsends hother horder hlater]
  · rw [SamePort, afterTaking_port, modPort_port_ne _ _ _ _ hq.symm]
  · exact ⟨afterTaking_group p _ _, afterTaking_record p _ _, afterTaking_reservedTotal p _ _,
      afterTaking_freeList p _ _, fun a => by rw [afterTaking_pool]; rfl⟩

end Sys2Proof.Machine.SendLists

namespace Sys2Proof.Machine.Inactive

open Laws MessagePool FrontEnds Sending Traffic Queues Handles Receiving Expiry SendLists

/-! ## Sets of ports -/

theorem has_insert (m : PortSet) (p q : Port) : PortSet.has (PortSet.insert m p) q = (PortSet.has m q || decide (q = p)) := by
  simp only [PortSet.has, PortSet.insert, Fin.getElem_fin, Vector.getElem_set, Fin.ext_iff, eq_comm (a := q.val)]
  split <;> simp [*]

theorem has_erase (m : PortSet) (p q : Port) : PortSet.has (PortSet.erase m p) q = (PortSet.has m q && decide (q ≠ p)) := by
  simp only [PortSet.has, PortSet.erase, Fin.getElem_fin, Vector.getElem_set, ne_eq, Fin.ext_iff, eq_comm (a := q.val)]
  split <;> simp [*]

theorem has_none (q : Port) : PortSet.has PortSet.none q = false := by
  simp [PortSet.has, PortSet.none]

theorem has_freed (q : Port) : PortSet.has Group.freed.members q = false := has_none q

/-! ## A port that takes no part (R126) -/

/-- The port's tables are empty and its latches clear. -/
structure Bare (c : CorePort) : Prop where
  queue     : c.queue = []
  held      : c.held = []
  sends     : c.sends = []
  doneOrder : c.doneOrder = []
  missed    : c.missed = false
  roster    : c.roster = false

/-- Port `q` is neither member nor anchor of the group. -/
structure Outside (e : Group) (q : Port) : Prop where
  member : PortSet.has e.members q = false
  anchor : e.anchor ≠ some q

/-- Port `q` takes no part in groups and messages. -/
structure NoPart (s : State) (q : Port) : Prop where
  port   : Bare (s.port q)
  groups : ∀ g, Outside (s.group g) q
  target : ∀ r, s.isOpenTarget r q = false
  sender : ∀ r, s.sentBy r q = false

/-- Group 0 is OPEN and has no anchor (R6). -/
def OpenStation (s : State) : Prop := (s.group 0).state = .opened ∧ (s.group 0).anchor = none

/-- The ACTIVE ports are the members of group 0, and no other port takes part. -/
structure Stationed (s : State) : Prop where
  station  : OpenStation s
  members  : ∀ p, PortSet.has (s.group 0).members p = true ↔ (s.port p).portState = .active
  inactive : ∀ p, (s.port p).portState ≠ .active → NoPart s p

theorem stationed_iff {s : State} : Stationed s ↔ StationLaw s ∧ InactiveLaw s := by
  constructor
  · intro hs
    refine ⟨⟨hs.station.1, hs.station.2, hs.members, fun p hp => ?_⟩, fun p hp => ?_⟩ <;>
      obtain ⟨⟨hqueue, hheld, hsends, hdone, hmissed, hroster⟩, hgroups, htarget, hsender⟩ := hs.inactive p hp
    · exact ⟨fun g => ⟨(hgroups g).member, (hgroups g).anchor⟩, hsends, hdone, hroster⟩
    · exact ⟨hqueue, hheld, hmissed, fun r => ⟨htarget r, hsender r⟩⟩
  · rintro ⟨⟨hopened, hanchor, hmembers, hstation⟩, hinactive⟩
    refine ⟨⟨hopened, hanchor⟩, hmembers, fun p hp => ?_⟩
    obtain ⟨hgroups, hsends, hdone, hroster⟩ := hstation p hp
    obtain ⟨hqueue, hheld, hmissed, hrecords⟩ := hinactive p hp
    exact ⟨⟨hqueue, hheld, hsends, hdone, hmissed, hroster⟩, fun g => ⟨(hgroups g).1, (hgroups g).2⟩,
      fun r => (hrecords r).1, fun r => (hrecords r).2⟩

/-- A port that takes part is ACTIVE. -/
theorem Stationed.active {s : State} (hs : Stationed s) {p : Port} (h : ¬ NoPart s p) :
    (s.port p).portState = .active := by
  by_contra hp
  exact h (hs.inactive p hp)

/-! ## Operations that give no port a part -/

/-- `t` is reached from `s` with no port's state changed and no port made member, anchor, open target or sender; a port
that took no part has empty tables still, and group 0 stands as it was. -/
structure Recedes (s t : State) : Prop where
  portState : ∀ q, (t.port q).portState = (s.port q).portState
  station   : OpenStation s → OpenStation t ∧ (t.group 0).members = (s.group 0).members
  member    : ∀ g q, PortSet.has (s.group g).members q = false → PortSet.has (t.group g).members q = false
  anchor    : ∀ g q, (s.group g).anchor ≠ some q → (t.group g).anchor ≠ some q
  target    : ∀ r q, s.isOpenTarget r q = false → t.isOpenTarget r q = false
  sender    : ∀ r q, s.sentBy r q = false → t.sentBy r q = false
  port      : ∀ q, NoPart s q → Bare (t.port q)

theorem Recedes.noPart {s t : State} (h : Recedes s t) {q : Port} (hs : NoPart s q) : NoPart t q :=
  ⟨h.port q hs, fun g => ⟨h.member g q (hs.groups g).member, h.anchor g q (hs.groups g).anchor⟩,
    fun r => h.target r q (hs.target r), fun r => h.sender r q (hs.sender r)⟩

theorem Recedes.refl (s : State) : Recedes s s :=
  ⟨fun _ => rfl, fun h => ⟨h, rfl⟩, fun _ _ => id, fun _ _ => id, fun _ _ => id, fun _ _ => id, fun _ h => h.port⟩

theorem Recedes.trans {s t u : State} (h : Recedes s t) (k : Recedes t u) : Recedes s u where
  portState q := (k.portState q).trans (h.portState q)
  station hs := ⟨(k.station (h.station hs).1).1, (k.station (h.station hs).1).2.trans (h.station hs).2⟩
  member g q := k.member g q ∘ h.member g q
  anchor g q := k.anchor g q ∘ h.anchor g q
  target r q := k.target r q ∘ h.target r q
  sender r q := k.sender r q ∘ h.sender r q
  port q hs := k.port q (h.noPart hs)

theorem Recedes.foldl {α : Type} {f : State → α → State} (hf : ∀ s a, Recedes s (f s a)) (l : List α) (s : State) :
    Recedes s (l.foldl f s) :=
  List.foldlRecOn l f (Recedes.refl s) fun t ht a _ => ht.trans (hf t a)

theorem Recedes.stationed {s t : State} (h : Recedes s t) (hs : Stationed s) : Stationed t := by
  obtain ⟨hstation, hmembers⟩ := h.station hs.station
  refine ⟨hstation, fun p => ?_, fun p hp => h.noPart (hs.inactive p (h.portState p ▸ hp))⟩
  rw [hmembers, hs.members, h.portState]

/-- An operation that changes no group and no record. -/
theorem Recedes.of_ports {s t : State} (hgroup : ∀ g, t.group g = s.group g) (hrecord : ∀ r, t.record r = s.record r)
    (hstate : ∀ q, (t.port q).portState = (s.port q).portState) (hport : ∀ q, NoPart s q → Bare (t.port q)) :
    Recedes s t := by
  have hmessage (r : RecordIndex) : t.message r = s.message r := congrArg TransitRecord.message (hrecord r)
  refine ⟨hstate, fun h => ?_, fun g q => ?_, fun g q => ?_, fun r q => ?_, fun r q => ?_, hport⟩
  · rw [OpenStation, hgroup]; exact ⟨h, rfl⟩
  · rw [hgroup]; exact id
  · rw [hgroup]; exact id
  · rw [State.isOpenTarget, State.isOpenTarget, hmessage]; exact id
  · rw [State.sentBy, State.sentBy, hmessage]; exact id

theorem Recedes.of_sameTables {s t : State} (h : SameTables s t) : Recedes s t := by
  obtain ⟨hport, hgroup, hrecord, -⟩ := h
  refine .of_ports hgroup hrecord (fun q => (SamePort.lists (hport q)).1) fun q hq => ?_
  obtain ⟨-, hmissed, hqueue, hheld⟩ := SamePort.lists (hport q)
  obtain ⟨hsends, hdone, hroster⟩ := SamePort.fields (hport q)
  obtain ⟨hqueue', hheld', hsends', hdone', hmissed', hroster'⟩ := hq.port
  exact ⟨hqueue.trans hqueue', hheld.trans hheld', hsends.trans hsends', hdone.trans hdone', hmissed.trans hmissed',
    hroster.trans hroster'⟩

/-- An operation outside the ports, the groups and the records. -/
theorem Recedes.of_eq {s t : State} (hport : ∀ q, t.port q = s.port q) (hgroup : ∀ g, t.group g = s.group g)
    (hrecord : ∀ r, t.record r = s.record r) : Recedes s t :=
  .of_ports hgroup hrecord (fun q => by rw [hport]) fun q hq => by rw [hport]; exact hq.port

theorem modPfe_recedes (s : State) (p : Port) (f : Pfe → Pfe) : Recedes s (s.modPfe p f) :=
  .of_eq (fun _ => rfl) (fun _ => rfl) fun _ => rfl

theorem mapPfes_recedes (s : State) (f : Port → Pfe → Pfe) : Recedes s (s.mapPfes f) :=
  .of_eq (mapPfes_port s f) (mapPfes_group s f) (mapPfes_record s f)

theorem setReserved_recedes (s : State) (n : Nat) : Recedes s (s.setReserved n) :=
  .of_eq (fun _ => rfl) (fun _ => rfl) fun _ => rfl

theorem setFreeList_recedes (s : State) (bs : List Block) : Recedes s (s.setFreeList bs) :=
  .of_eq (fun _ => rfl) (fun _ => rfl) fun _ => rfl

theorem setTickCount_recedes (s : State) (n : Nat) : Recedes s (s.setTickCount n) :=
  .of_eq (fun _ => rfl) (fun _ => rfl) fun _ => rfl

theorem setArbiter_recedes (s : State) (k : Fin 13) (u : Option Port) : Recedes s (s.setArbiter k u) :=
  .of_eq (fun _ => rfl) (fun _ => rfl) fun _ => rfl

theorem setPending_recedes (s : State) (cs : List Instr) : Recedes s (s.setPending cs) :=
  .of_eq (fun _ => rfl) (fun _ => rfl) fun _ => rfl

/-- An update of one port that keeps its state and leaves it bare where it takes no part. -/
theorem modPort_recedes (s : State) (p : Port) {f : CorePort → CorePort} (hstate : ∀ c, (f c).portState = c.portState)
    (hbare : NoPart s p → Bare (f (s.port p))) : Recedes s (s.modPort p f) := by
  refine .of_ports (fun _ => rfl) (fun _ => rfl) (fun q => ?_) fun q hq => ?_ <;> rw [modPort_port] <;> split
  · rename_i h; subst h; exact hstate _
  · rfl
  · rename_i h; subst h; exact hbare hq
  · exact hq.port

/-- An update of one group that makes no port member or anchor, and leaves group 0 OPEN with the same members. -/
theorem modGroup_recedes (s : State) (g : GroupNo) {f : Group → Group}
    (hmember : ∀ q, PortSet.has (s.group g).members q = false → PortSet.has (f (s.group g)).members q = false)
    (hanchor : ∀ q, (s.group g).anchor ≠ some q → (f (s.group g)).anchor ≠ some q)
    (hstation : g = 0 → OpenStation s → OpenStation (s.modGroup 0 f) ∧ (f (s.group 0)).members = (s.group 0).members) :
    Recedes s (s.modGroup g f) := by
  refine ⟨fun _ => rfl, fun h => ?_, fun k q => ?_, fun k q => ?_, fun _ _ => id, fun _ _ => id, fun q hq => hq.port⟩
  · by_cases hg : g = 0
    · subst hg
      rw [modGroup_group_same]
      exact hstation rfl h
    · rw [OpenStation, modGroup_group_ne _ _ _ _ hg]
      exact ⟨h, rfl⟩
  · rw [modGroup_group]
    split
    · rename_i h; subst h; exact hmember q
    · exact id
  · rw [modGroup_group]
    split
    · rename_i h; subst h; exact hanchor q
    · exact id

/-- An update of one group that keeps its members, its anchor and its state. -/
theorem modGroup_recedes_of_same (s : State) (g : GroupNo) {f : Group → Group}
    (hf : ∀ e, (f e).members = e.members ∧ (f e).anchor = e.anchor ∧ (f e).state = e.state) :
    Recedes s (s.modGroup g f) := by
  obtain ⟨hmembers, hanchor, hstate⟩ := hf (s.group g)
  refine modGroup_recedes s g (fun q => ?_) (fun q => ?_) fun hg h => ?_
  · rw [hmembers]; exact id
  · rw [hanchor]; exact id
  · subst hg
    rw [OpenStation, modGroup_group_same, hstate, hanchor]
    exact ⟨h, hmembers⟩

/-- An operation on the records alone that opens no target and makes no port a sender. -/
theorem Recedes.of_messages {s t : State} (hport : ∀ q, t.port q = s.port q) (hgroup : ∀ g, t.group g = s.group g)
    (hmessage : ∀ r m, t.message r = some m → ∃ m', s.message r = some m' ∧ m.sender = m'.sender ∧
      ∀ q, (m.outcomeOf q = some .queued ∨ m.outcomeOf q = some .held) →
        m'.outcomeOf q = some .queued ∨ m'.outcomeOf q = some .held) : Recedes s t := by
  refine ⟨fun q => by rw [hport], fun h => ?_, fun g q => ?_, fun g q => ?_, fun r q h => ?_, fun r q h => ?_,
    fun q hq => by rw [hport]; exact hq.port⟩
  · rw [OpenStation, hgroup]; exact ⟨h, rfl⟩
  · rw [hgroup]; exact id
  · rw [hgroup]; exact id
  · refine Bool.eq_false_iff.2 fun ht => ?_
    obtain ⟨m, hm, hopen⟩ := isOpenTarget_iff.1 ht
    obtain ⟨m', hm', -, houtcome⟩ := hmessage r m hm
    rw [isOpenTarget_iff.2 ⟨m', hm', houtcome q hopen⟩] at h
    cases h
  · refine Bool.eq_false_iff.2 fun ht => ?_
    obtain ⟨m, hm, hsender⟩ := sentBy_iff.1 ht
    obtain ⟨m', hm', hsame, -⟩ := hmessage r m hm
    rw [sentBy_iff.2 ⟨m', hm', hsame.symm.trans hsender⟩] at h
    cases h

/-- An update of a message that keeps its sender and opens no target. -/
theorem modMessage_recedes (s : State) (r : RecordIndex) {f : Message → Message} (hsender : ∀ m, (f m).sender = m.sender)
    (hf : ∀ m q, ((f m).outcomeOf q = some .queued ∨ (f m).outcomeOf q = some .held) →
      m.outcomeOf q = some .queued ∨ m.outcomeOf q = some .held) : Recedes s (s.modMessage r f) := by
  refine .of_messages (fun _ => rfl) (fun _ => rfl) fun k m hm => ?_
  by_cases h : r = k
  · subst h
    rw [modMessage_message_same, Option.map_eq_some_iff] at hm
    obtain ⟨m', hm', rfl⟩ := hm
    exact ⟨m', hm', hsender m', hf m'⟩
  · rw [modMessage_message_ne _ _ _ _ h] at hm
    exact ⟨m, hm, rfl, fun _ => id⟩

theorem lowerRemaining_recedes (s : State) (c : Nat) : Recedes s (s.lowerRemaining c) := by
  refine .of_messages (lowerRemaining_port s c) (mapRecords_group s _) fun r m hm => ?_
  simp only [State.lowerRemaining, State.message, mapRecords_record, Option.map_eq_some_iff] at hm
  obtain ⟨m', hm', rfl⟩ := hm
  exact ⟨m', hm', rfl, fun _ => id⟩

/-- Making a target final opens none. -/
theorem setTarget_recedes (s : State) (r : RecordIndex) (p : Port) {o : TargetOutcome} (ho : o.isOpen = false)
    (code : Byte) : Recedes s (s.setTarget r p o code) := by
  refine modMessage_recedes s r (fun _ => rfl) fun m q h => ?_
  rw [outcomeOf_setTarget] at h
  split at h
  · cases hq : m.outcomeOf q <;> simp only [hq, Option.map_none, Option.map_some, Option.some.injEq, reduceCtorEq,
      or_self] at h
    rw [isOpen_iff.2 h] at ho
    cases ho
  · exact h

theorem dropDelivery_recedes (s : State) (r : RecordIndex) (p : Port) : Recedes s (s.dropDelivery r p) :=
  modPort_recedes s p (fun _ => rfl) fun h => { h.port with queue := by rw [h.port.queue]; rfl }

theorem dropHeld_recedes (s : State) (r : RecordIndex) (p : Port) : Recedes s (s.dropHeld r p) :=
  modPort_recedes s p (fun _ => rfl) fun h => { h.port with held := by rw [h.port.held]; rfl }

theorem dropHead_recedes (s : State) (p : Port) : Recedes s (s.dropHead p) :=
  modPort_recedes s p (fun _ => rfl) fun h => { h.port with queue := by rw [h.port.queue]; rfl }

theorem settle_recedes (s : State) (r : RecordIndex) (p : Port) {o : TargetOutcome} (ho : o.isOpen = false)
    (code : Byte) : Recedes s (s.settle r p o code) := by
  rcases settle_cases s r p o code with h | h | h <;> rw [h]
  · exact .refl s
  · exact (dropDelivery_recedes s r p).trans (setTarget_recedes _ r p ho code)
  · exact (dropHeld_recedes s r p).trans (setTarget_recedes _ r p ho code)

/-- A roster notice to members, none of which is a port that takes no part (R8). -/
theorem notifyRoster_recedes (s : State) {m : PortSet} (but : Option Port)
    (hm : ∀ q, NoPart s q → PortSet.has m q = false) : Recedes s (s.notifyRoster m but) := by
  refine .of_ports (mapPorts_group s _) (mapPorts_record s _) (notifyRoster_coreOnly s m but).portState fun q hq => ?_
  rw [notifyRoster_port, hm q hq]
  exact hq.port

/-- The FREE transition of a group, which is never group 0 (R5, R6). -/
theorem freeGroup_recedes (s : State) {g : GroupNo} (hg : g = 0 → ¬ OpenStation s) (closer : Option Port) :
    Recedes s (s.freeGroup g closer) := by
  have hnotify : Recedes s ((s.setReserved (s.reservedTotal - (s.group g).quota)).notifyRoster (s.group g).members
      closer) :=
    (setReserved_recedes s _).trans (notifyRoster_recedes _ _ fun q hq => (hq.groups g).member)
  refine hnotify.trans (modGroup_recedes _ g (fun q _ => has_freed q) (fun q _ => by simp [Group.freed]) fun h0 h => ?_)
  exact absurd (by simpa [OpenStation, State.notifyRoster] using h) (hg h0)

theorem freeIfDone_recedes (s : State) (g : GroupNo) (closer : Option Port) : Recedes s (s.freeIfDone g closer) := by
  unfold State.freeIfDone
  split
  · rename_i hclosing
    refine freeGroup_recedes s (fun hg h => ?_) closer
    subst hg
    cases h.1.symm.trans hclosing.1
  · exact .refl s

/-- A group other than group 0 enters CLOSING (R4). -/
theorem enterClosing_recedes (s : State) {g : GroupNo} (hg : g ≠ 0) (cause : Port) (closer : Option Port) :
    Recedes s (s.enterClosing g cause closer) := by
  have hclosing : Recedes s (s.modGroup g fun e => { e with state := .closing }) :=
    modGroup_recedes s g (fun _ => id) (fun _ => id) fun h => absurd h hg
  refine (hclosing.trans (notifyRoster_recedes _ _ fun q hq => ?_)).trans (freeIfDone_recedes _ g closer)
  have hmember := (hq.groups g).member
  rwa [modGroup_group_same] at hmember

/-! ### The close of a record -/

theorem closeEntry_recedes (s : State) (retiring : Option Port) (r : RecordIndex) (m : Message) :
    Recedes s (s.closeEntry retiring r m) := by
  unfold State.closeEntry
  split
  · exact .refl s
  · split
    · exact modPort_recedes s _ (fun _ => rfl) fun h => { h.port with
        sends := by simp [CorePort.complete, h.port.sends]
        doneOrder := by simp [CorePort.complete, h.port.sends, h.port.doneOrder] }
    · exact modPort_recedes s _ (fun _ => rfl) fun h => { h.port with
        sends := by simp [CorePort.dropEntry, h.port.sends] }

theorem releaseCharge_recedes (s : State) (m : Message) : Recedes s (s.releaseCharge m) := by
  refine Recedes.trans (modGroup_recedes_of_same s m.group ?_) (freeIfDone_recedes _ m.group none)
  exact fun _ => ⟨rfl, rfl, rfl⟩

theorem retireRecord_recedes (s : State) (r : RecordIndex) : Recedes s (s.modRecord r TransitRecord.retire) := by
  refine .of_messages (fun _ => rfl) (fun _ => rfl) fun k m hm => ⟨m, ?_, rfl, fun _ => id⟩
  rw [State.message, modRecord_record] at hm
  split at hm
  · cases hm
  · exact hm

theorem closeIfSettled_recedes (s : State) (retiring : Option Port) (r : RecordIndex) :
    Recedes s (s.closeIfSettled retiring r) := by
  obtain h | ⟨m, hm, -, h⟩ := closeIfSettled_cases s retiring r <;> rw [h]
  · exact .refl s
  · rw [closeRecord_some hm]
    exact (((closeEntry_recedes s retiring r m).trans (setFreeList_recedes _ _)).trans
      (releaseCharge_recedes _ m)).trans (retireRecord_recedes _ r)

theorem withdraw_recedes (s : State) (retiring : Option Port) (r : RecordIndex) (p : Port) :
    Recedes s (s.withdraw retiring r p) := by
  unfold State.withdraw
  split
  · exact (settle_recedes s r p rfl 0).trans (closeIfSettled_recedes _ retiring r)
  · exact .refl s

theorem withdrawAll_recedes (s : State) (retiring : Option Port) (p : Port) (rs : List RecordIndex) :
    Recedes s (s.withdrawAll retiring p rs) := .foldl (fun t r => withdraw_recedes t retiring r p) rs s

/-- The missed latch is set for a QUEUED target alone (R81). -/
theorem missIfQueued_recedes (s : State) (r : RecordIndex) (q : Port) : Recedes s (s.missIfQueued r q) := by
  unfold State.missIfQueued
  split
  · rename_i hmiss
    refine modPort_recedes s q (fun _ => rfl) fun h => ?_
    obtain ⟨m, hm, hqueued⟩ := (Option.any_eq_true _ _).1 hmiss
    simp only [Bool.and_eq_true, beq_iff_eq] at hqueued
    have htarget := h.target r
    rw [isOpenTarget_iff.2 ⟨m, hm, .inl hqueued.2⟩] at htarget
    cases htarget
  · exact .refl s

theorem expire_recedes (s : State) (r : RecordIndex) : Recedes s (s.expire r) := by
  have htargets : Recedes s (s.expireTargets r) :=
    .foldl (fun t q => (missIfQueued_recedes t r q).trans (settle_recedes _ r q rfl 0)) allPorts s
  exact htargets.trans (closeIfSettled_recedes _ none r)

theorem answer_recedes (p : Port) (h : Handle) {o : TargetOutcome} (ho : o.isOpen = false) (code : Byte) (s : State) :
    Recedes s (answer p h o code s) := by
  have hheld : Recedes s (s.modPort p fun c => { c with held := c.held.filter fun k => k != h }) :=
    modPort_recedes s p (fun _ => rfl) fun hp => { hp.port with held := by rw [hp.port.held]; rfl }
  exact hheld.trans (setTarget_recedes _ _ p ho code)

theorem ackEffect_recedes (p : Port) (code : Byte) (h : Handle) (s : State) : Recedes s (ackEffect p code h s) :=
  (answer_recedes p h (o := .acked) rfl code s).trans (closeIfSettled_recedes _ none _)

theorem stopMessage_recedes (s : State) (r : RecordIndex) : Recedes s (s.stopMessage r) := by
  have hstopped : Recedes s (s.modMessage r fun m => { m with stopped := true }) :=
    modMessage_recedes s r (fun _ => rfl) fun _ _ => id
  exact hstopped.trans (.foldl (fun t q => settle_recedes t r q rfl 0) allPorts _)

theorem nackEffect_recedes (p : Port) (code : Byte) (h : Handle) (s : State) : Recedes s (nackEffect p code h s) := by
  refine (answer_recedes p h (o := .refused) rfl code s).trans (Recedes.trans ?_ (closeIfSettled_recedes _ none _))
  split
  · exact stopMessage_recedes _ _
  · exact .refl _

theorem fetchUnconfirmed_recedes (p : Port) (h : Handle) (s : State) : Recedes s (fetchUnconfirmed p h s) :=
  ((dropHead_recedes s p).trans (setTarget_recedes _ _ p rfl 0)).trans (closeIfSettled_recedes _ none _)

theorem dropDone_recedes (s : State) (p : Port) (tag : Byte) : Recedes s (s.modPort p fun c => c.dropDone tag) :=
  modPort_recedes s p (fun _ => rfl) fun h => { h.port with
    sends := by simp [CorePort.dropDone, h.port.sends]
    doneOrder := by simp [CorePort.dropDone, h.port.doneOrder] }

theorem clearNoticesEffect_recedes (p : Port) (choice : Byte) (s : State) :
    Recedes s (clearNoticesEffect p choice s) := by
  unfold clearNoticesEffect
  split
  · exact .refl s
  · exact modPort_recedes s p (fun _ => rfl) fun h => { h.port with
      missed := by simp [h.port.missed]
      roster := by simp [h.port.roster] }


/-! ## Retirement (R126, R133 to R137) -/

/-- A port that is an open target of no record has nothing in its queue and its held list (R63, R66). -/
theorem lists_eq_nil {s : State} (hs : Agrees s) {p : Port} (h : ∀ r, s.isOpenTarget r p = false) :
    (s.port p).queue = [] ∧ (s.port p).held = [] := by
  have hopen (r : RecordIndex) (m : Message) (hm : s.message r = some m)
      (houtcome : m.outcomeOf p = some .queued ∨ m.outcomeOf p = some .held) : False := by
    have htarget := h r
    rw [isOpenTarget_iff.2 ⟨m, hm, houtcome⟩] at htarget
    cases htarget
  refine ⟨List.eq_nil_iff_forall_not_mem.2 fun d hd => ?_, List.eq_nil_iff_forall_not_mem.2 fun k hk => ?_⟩
  · obtain ⟨m, hm, hqueued, -⟩ := (hs.queued p d).1 hd
    exact hopen _ m hm (.inl hqueued)
  · obtain ⟨m, hm, hheld, -⟩ := (hs.held p k).1 hk
    exact hopen _ m hm (.inr hheld)

/-- Once a port has been withdrawn from each record of a list, it is an open target of none of them. -/
theorem withdrawAll_isOpenTarget (retiring : Option Port) (p : Port) {rs : List RecordIndex} {r : RecordIndex}
    (hr : r ∈ rs) (s : State) : (s.withdrawAll retiring p rs).isOpenTarget r p = false := by
  induction rs generalizing s with
  | nil => cases hr
  | cons k ks ih =>
    obtain rfl | hr := List.mem_cons.1 hr
    · have hfinal : (s.withdraw retiring r p).isOpenTarget r p = false :=
        Bool.eq_false_iff.2 fun h => (withdraw_isOpenTarget h).2 ⟨rfl, rfl⟩
      exact drains_isOpenTarget (withdrawAll_drains _ retiring p ks) hfinal
    · exact ih hr _

/-- An open target of a record has the record in its queue or its held list (R63, R66). -/
theorem mem_lists_of_isOpenTarget {s : State} (hs : Agrees s) {p : Port} {r : RecordIndex} (h : s.isOpenTarget r p = true) :
    r ∈ (s.port p).queue.map (fun d => d.handle.index) ∨ r ∈ (s.port p).held.map Handle.index := by
  obtain ⟨m, hm, hqueued | hheld⟩ := isOpenTarget_iff.1 h
  · exact .inl (List.mem_map.2 ⟨⟨s.handle r, m.cls⟩, (hs.queued p _).2 ⟨m, hm, hqueued, rfl⟩, rfl⟩)
  · exact .inr (List.mem_map.2 ⟨s.handle r, (hs.held p _).2 ⟨m, hm, hheld, rfl⟩, rfl⟩)

/-- Step 1 of a retirement leaves the port an open target of no record (R79, R134). -/
theorem retireTargets_isOpenTarget {s : State} (hs : HandleLaw s) (p : Port) (r : RecordIndex) :
    (s.retireTargets p).isOpenTarget r p = false := by
  have hqueue := withdrawAll_drains s (some p) p ((s.port p).queue.map fun d => d.handle.index)
  have hheld := withdrawAll_drains (s.withdrawAll (some p) p ((s.port p).queue.map fun d => d.handle.index)) (some p) p
    (((s.withdrawAll (some p) p ((s.port p).queue.map fun d => d.handle.index)).port p).held.map Handle.index)
  cases hopen : (s.withdrawAll (some p) p ((s.port p).queue.map fun d => d.handle.index)).isOpenTarget r p with
  | false => exact drains_isOpenTarget hheld hopen
  | true =>
    obtain hr | hr := mem_lists_of_isOpenTarget (handleLaw_iff.1 (drains_handleLaw hqueue hs)).1 hopen
    · have hsublist := ((Subsides.of_drains hqueue).queue p).map fun d => d.handle.index
      rw [withdrawAll_isOpenTarget (some p) p (hsublist.subset hr)] at hopen
      cases hopen
    · exact withdrawAll_isOpenTarget (some p) p hr _

theorem retireMemberships_group (s : State) (p : Port) (g : GroupNo) :
    (s.retireMemberships p).group g = { s.group g with members := PortSet.erase (s.group g).members p } :=
  mapGroups_group s _ g

/-- Anchor loss, where group 0 has no anchor to lose (R25). -/
theorem loseAnchor_recedes (p : Port) {s : State} (hs : OpenStation s) (g : GroupNo) :
    Recedes s (State.loseAnchor p s g) := by
  unfold State.loseAnchor
  split
  · rename_i hanchor
    have hg : g ≠ 0 := by
      rintro rfl
      cases hanchor.symm.trans hs.2
    have hlost : Recedes s (s.modGroup g fun e => { e with anchor := none }) :=
      modGroup_recedes s g (fun _ => id) (fun _ _ => by simp) fun h => absurd h hg
    dsimp only
    split
    · exact hlost.trans (enterClosing_recedes _ hg p none)
    · exact hlost
  · exact .refl s

theorem foldl_loseAnchor_recedes (p : Port) {s : State} (hs : OpenStation s) (gs : List GroupNo) :
    Recedes s (gs.foldl (State.loseAnchor p) s) :=
  List.foldlRecOn gs (State.loseAnchor p) (Recedes.refl s) fun _ ht g _ =>
    ht.trans (loseAnchor_recedes p (ht.station hs).1 g)

/-- The port is not the anchor of a group whose anchor loss has been made. -/
theorem loseAnchor_anchor (p : Port) {s : State} (hs : OpenStation s) (g : GroupNo) :
    ((State.loseAnchor p s g).group g).anchor ≠ some p := by
  by_cases hanchor : (s.group g).anchor = some p
  · have hg : g ≠ 0 := by
      rintro rfl
      cases hanchor.symm.trans hs.2
    have hlost : ((s.modGroup g fun e => { e with anchor := none }).group g).anchor ≠ some p := by simp
    rw [State.loseAnchor, if_pos hanchor]
    dsimp only
    split
    · exact (enterClosing_recedes _ hg p none).anchor g p hlost
    · exact hlost
  · exact (loseAnchor_recedes p hs g).anchor g p hanchor

theorem foldl_loseAnchor_anchor (p : Port) {gs : List GroupNo} {g : GroupNo} (hg : g ∈ gs) {s : State}
    (hs : OpenStation s) : ((gs.foldl (State.loseAnchor p) s).group g).anchor ≠ some p := by
  induction gs generalizing s with
  | nil => cases hg
  | cons k ks ih =>
    have hnext := ((loseAnchor_recedes p hs k).station hs).1
    obtain rfl | hg := List.mem_cons.1 hg
    · exact (foldl_loseAnchor_recedes p hnext ks).anchor g p (loseAnchor_anchor p hs g)
    · exact ih hg hnext

theorem endMessage_recedes (p : Port) (s : State) (r : RecordIndex) : Recedes s (State.endMessage p s r) := by
  unfold State.endMessage
  split
  · exact .foldl (fun t q => withdraw_recedes t (some p) r q) allPorts s
  · exact .refl s

theorem retireMessages_recedes (s : State) (p : Port) : Recedes s (s.retireMessages p) :=
  .foldl (endMessage_recedes p) allRecords s

/-- The last two steps of a retirement, at the port itself and at another (R137). -/
theorem retireSends_port (s : State) (p : Port) (final : PortState) (q : Port) :
    ((s.retireSends p).setPortState p final).port q =
      if p = q then
        { s.port q with
          sends := [], doneOrder := [], missed := false, roster := false, portState := final }
      else s.port q := by
  rw [State.setPortState, State.retireSends, modPort_port]
  split
  · rename_i h; subst h; rw [modPort_port_same]
  · rename_i h; rw [modPort_port_ne _ _ _ _ h]

theorem retireTargets_recedes (s : State) (p : Port) : Recedes s (s.retireTargets p) :=
  (withdrawAll_recedes s (some p) p _).trans (withdrawAll_recedes _ (some p) p _)

theorem retireMemberships_openStation {s : State} (hs : OpenStation s) (p : Port) :
    OpenStation (s.retireMemberships p) := by
  rw [OpenStation, retireMemberships_group]
  exact hs

/-- From the second step on, a retirement makes no port member or anchor and takes none out of group 0 but the port
that retires, which is out of it by then. -/
theorem retireMemberships_recedes_retireMessages {s : State} (hs : OpenStation s) (p : Port) :
    Recedes (s.retireMemberships p) (((s.retireMemberships p).retireAnchorships p).retireMessages p) :=
  (foldl_loseAnchor_recedes p (retireMemberships_openStation hs p) allGroups).trans (retireMessages_recedes _ p)

/-- The port has left every group (R135, R136). -/
theorem retireMessages_outside {s : State} (hs : OpenStation s) (p : Port) (g : GroupNo) :
    Outside ((((s.retireMemberships p).retireAnchorships p).retireMessages p).group g) p := by
  have hstation := retireMemberships_openStation hs p
  refine ⟨(retireMemberships_recedes_retireMessages hs p).member g p ?_,
    (retireMessages_recedes _ p).anchor g p (foldl_loseAnchor_anchor p (List.mem_finRange g) hstation)⟩
  rw [retireMemberships_group, has_erase]
  simp

/-- A port that retires is an open target and the sender of no record once its messages have ended (R79, R80). -/
theorem retireMessages_records {s : State} (hs : HandleLaw s) (p : Port) (r : RecordIndex) :
    ((withdrawnState s p).retireMessages p).isOpenTarget r p = false ∧
      ((withdrawnState s p).retireMessages p).sentBy r p = false := by
  have hgroups : SameTraffic (s.retireTargets p) (withdrawnState s p) :=
    (mapGroups_sameTraffic _ _).trans (.foldl (loseAnchor_sameTraffic p) allGroups _)
  have hmessages : Drains (withdrawnState s p) ((withdrawnState s p).retireMessages p) :=
    .foldl (endMessage_drains p) allRecords _
  exact ⟨drains_isOpenTarget ((Drains.traffic hgroups).trans hmessages) (retireTargets_isOpenTarget hs p r),
    foldl_endMessage_sentBy p (List.mem_finRange r) (withdrawnState_handleLaw hs p)⟩

theorem retire_port (s : State) (p : Port) (final : PortState) (q : Port) :
    (s.retire p final).port q =
      if p = q then
        { ((withdrawnState s p).retireMessages p).port q with
          sends := [], doneOrder := [], missed := false, roster := false, portState := final }
      else ((withdrawnState s p).retireMessages p).port q := by
  rw [State.retire, retireSends_port]

/-- The end of a retirement changes no group (R137). -/
theorem retire_group (s : State) (p : Port) (final : PortState) (g : GroupNo) :
    (s.retire p final).group g = ((withdrawnState s p).retireMessages p).group g := by
  rw [State.retire, State.setPortState, modPort_group, State.retireSends, modPort_group]

theorem retire_message (s : State) (p : Port) (final : PortState) (r : RecordIndex) :
    (s.retire p final).message r = ((withdrawnState s p).retireMessages p).message r := by
  rw [State.retire, State.setPortState, modPort_message, State.retireSends, modPort_message]

/-- A retirement leaves the port with no part, whatever part it took. -/
theorem retire_noPart {s : State} (hh : HandleLaw s) (hs : OpenStation s) (p : Port) (final : PortState) :
    NoPart (s.retire p final) p := by
  have hlaw := drains_handleLaw (retire_drains s p final) hh
  have htarget (r : RecordIndex) : (s.retire p final).isOpenTarget r p = false := by
    rw [State.isOpenTarget, retire_message]
    exact (retireMessages_records hh p r).1
  have hsender (r : RecordIndex) : (s.retire p final).sentBy r p = false := by
    rw [State.sentBy, retire_message]
    exact (retireMessages_records hh p r).2
  have houtside (g : GroupNo) : Outside ((s.retire p final).group g) p := by
    rw [retire_group]
    exact retireMessages_outside ((retireTargets_recedes s p).station hs).1 p g
  obtain ⟨hqueue, hheld⟩ := lists_eq_nil (handleLaw_iff.1 hlaw).1 htarget
  have hport := retire_port s p final p
  rw [if_pos rfl] at hport
  refine ⟨⟨hqueue, hheld, ?_, ?_, ?_, ?_⟩, houtside, htarget, hsender⟩ <;> rw [hport]

theorem retireMemberships_noPart {s : State} {q : Port} (hq : NoPart s q) (p : Port) :
    NoPart (s.retireMemberships p) q := by
  have hmessage (r : RecordIndex) : (s.retireMemberships p).message r = s.message r :=
    (mapGroups_sameTraffic s _).message r
  obtain ⟨hbare, hgroups, htarget, hsender⟩ := hq
  refine ⟨?_, fun g => ⟨?_, ?_⟩, fun r => ?_, fun r => ?_⟩
  · rw [State.retireMemberships, mapGroups_port]; exact hbare
  · rw [retireMemberships_group, has_erase, (hgroups g).member, Bool.false_and]
  · rw [retireMemberships_group]; exact (hgroups g).anchor
  · rw [State.isOpenTarget, hmessage]; exact htarget r
  · rw [State.sentBy, hmessage]; exact hsender r

/-- The retirement of another port gives a port that takes no part none (R126). -/
theorem retire_keepsNoPart {s : State} (hs : Stationed s) {p q : Port} (hpq : p ≠ q) (hq : NoPart s q)
    (final : PortState) : NoPart (s.retire p final) q := by
  have hfirst := (retireTargets_recedes s p).stationed hs
  have herased := retireMemberships_noPart ((retireTargets_recedes s p).noPart hq) p
  obtain ⟨hbare, hgroups, htarget, hsender⟩ :=
    (retireMemberships_recedes_retireMessages hfirst.station p).noPart herased
  refine ⟨?_, fun g => ?_, fun r => ?_, fun r => ?_⟩
  · rw [retire_port, if_neg hpq]; exact hbare
  · rw [retire_group]; exact hgroups g
  · rw [State.isOpenTarget, retire_message]; exact htarget r
  · rw [State.sentBy, retire_message]; exact hsender r

/-- A retirement takes the port out of group 0 with its state, and gives no other port a part. -/
theorem retire_stationed {s : State} (hh : HandleLaw s) (hs : Stationed s) (p : Port) {final : PortState}
    (hfinal : final ≠ .active) : Stationed (s.retire p final) := by
  have hfirst := (retireTargets_recedes s p).stationed hs
  have hrest := retireMemberships_recedes_retireMessages hfirst.station p
  obtain ⟨hstation, hmembers⟩ := hrest.station (retireMemberships_openStation hfirst.station p)
  rw [retireMemberships_group] at hmembers
  refine ⟨?_, fun q => ?_, fun q hq => ?_⟩
  · rw [OpenStation, retire_group]
    exact hstation
  · have hmember : PortSet.has ((s.retire p final).group 0).members q =
        PortSet.has (PortSet.erase ((s.retireTargets p).group 0).members p) q := by
      rw [retire_group, hmembers]
    rw [hmember, has_erase, retire_portState, Bool.and_eq_true, hfirst.members, decide_eq_true_iff,
      (retireTargets_recedes s p).portState]
    by_cases hpq : p = q
    · simp [hpq, hfinal]
    · simp [hpq, Ne.symm hpq]
  · by_cases hpq : p = q
    · subst hpq
      exact retire_noPart hh hs.station p final
    · rw [retire_portState, if_neg hpq] at hq
      exact retire_keepsNoPart hs hpq (hs.inactive q hq) final

/-! ## Commands that give a part to an ACTIVE port -/

/-- An update of one port that keeps its state, and leaves it bare unless it is ACTIVE. -/
theorem Stationed.modPort {s : State} (hs : Stationed s) (p : Port) {f : CorePort → CorePort}
    (hstate : ∀ c, (f c).portState = c.portState)
    (hbare : (s.port p).portState ≠ .active → Bare (f (s.port p))) : Stationed (s.modPort p f) := by
  have hsame (q : Port) : ((s.modPort p f).port q).portState = (s.port q).portState := by
    rw [modPort_port]
    split
    · rename_i h; subst h; exact hstate _
    · rfl
  refine ⟨hs.station, fun q => by rw [hsame]; exact hs.members q, fun q hq => ?_⟩
  rw [hsame] at hq
  obtain ⟨hport, hgroups, htarget, hsender⟩ := hs.inactive q hq
  refine ⟨?_, hgroups, htarget, hsender⟩
  rw [modPort_port]
  split
  · rename_i h; subst h; exact hbare hq
  · exact hport

/-- An update of a group other than group 0 that makes none but ACTIVE ports member or anchor. -/
theorem Stationed.modGroup {s : State} (hs : Stationed s) {g : GroupNo} (hg : g ≠ 0) {f : Group → Group}
    (hf : ∀ q, (s.port q).portState ≠ .active → Outside (s.group g) q → Outside (f (s.group g)) q) :
    Stationed (s.modGroup g f) := by
  refine ⟨?_, fun q => ?_, fun q hq => ?_⟩
  · rw [OpenStation, modGroup_group_ne _ _ _ _ hg]; exact hs.station
  · rw [modGroup_group_ne _ _ _ _ hg]; exact hs.members q
  · obtain ⟨hport, hgroups, htarget, hsender⟩ := hs.inactive q hq
    refine ⟨hport, fun k => ?_, htarget, hsender⟩
    rw [modGroup_group]
    split
    · rename_i h; subst h; exact hf q hq (hgroups g)
    · exact hgroups k

/-- A port that is not ACTIVE is not the port that is. -/
theorem ne_of_inactive {s : State} {p q : Port} (hp : (s.port p).portState = .active)
    (hq : (s.port q).portState ≠ .active) : q ≠ p := by
  rintro rfl
  exact hq hp

theorem addMember_stationed {s : State} (hs : Stationed s) {g : GroupNo} (hg : g ≠ 0) {p : Port}
    (hp : (s.port p).portState = .active) : Stationed (s.addMember g p) := by
  refine hs.modGroup hg fun q hq hout => ⟨?_, hout.anchor⟩
  rw [has_insert, hout.member, decide_eq_false (ne_of_inactive hp hq), Bool.or_false]

theorem removeMember_stationed {s : State} (hs : Stationed s) {g : GroupNo} (hg : g ≠ 0) (p : Port) :
    Stationed (s.removeMember g p) := by
  refine hs.modGroup hg fun q _ hout => ⟨?_, hout.anchor⟩
  rw [has_erase, hout.member, Bool.false_and]

theorem notifyPort_stationed {s : State} (hs : Stationed s) (p : Port) {q : Port}
    (hq : (s.port q).portState = .active) : Stationed (s.notifyPort p q) := by
  unfold State.notifyPort
  split
  · exact hs
  · exact hs.modPort q (fun _ => rfl) fun h => absurd hq h

theorem attachEffect_stationed {s : State} (hs : Stationed s) (p : Port) : Stationed (attachEffect p s) := by
  have hgroup (g : GroupNo) : (attachEffect p s).group g =
      if 0 = g then { s.group 0 with members := PortSet.insert (s.group 0).members p } else s.group g := by
    rw [attachEffect, State.addMember, modGroup_group]
    rfl
  have hport (q : Port) : (attachEffect p s).port q =
      if p = q then { s.port p with portState := .active } else s.port q := by
    rw [attachEffect, State.addMember, modGroup_port, State.setPortState, modPort_port]
  refine ⟨?_, fun q => ?_, fun q hq => ?_⟩
  · rw [OpenStation, hgroup, if_pos rfl]; exact hs.station
  · rw [hgroup, if_pos rfl, has_insert, hport, Bool.or_eq_true, hs.members, decide_eq_true_iff]
    by_cases hpq : p = q
    · simp [hpq]
    · simp [hpq, Ne.symm hpq]
  · rw [hport] at hq
    split at hq
    · exact absurd rfl hq
    · rename_i hpq
      obtain ⟨hbare, hgroups, htarget, hsender⟩ := hs.inactive q hq
      refine ⟨by rw [hport, if_neg hpq]; exact hbare, fun g => ?_, htarget, hsender⟩
      rw [hgroup]
      split
      · refine ⟨?_, (hgroups 0).anchor⟩
        rw [has_insert, (hgroups 0).member, decide_eq_false (Ne.symm hpq), Bool.or_false]
      · exact hgroups g

theorem setPortState_stationed {s : State} (hs : Stationed s) {p : Port} (hp : (s.port p).portState ≠ .active)
    {final : PortState} (hfinal : final ≠ .active) : Stationed (s.setPortState p final) := by
  have hport (q : Port) : (s.setPortState p final).port q =
      if p = q then { s.port p with portState := final } else s.port q := modPort_port s p _ q
  have hsame (q : Port) : ((s.setPortState p final).port q).portState = .active ↔ (s.port q).portState = .active := by
    rw [hport]
    split
    · rename_i h; subst h; exact iff_of_false hfinal hp
    · rfl
  refine ⟨hs.station, fun q => (hs.members q).trans (hsame q).symm, fun q hq => ?_⟩
  obtain ⟨hbare, hgroups, htarget, hsender⟩ := hs.inactive q (mt (hsame q).2 hq)
  refine ⟨?_, hgroups, htarget, hsender⟩
  rw [hport]
  split
  · rename_i h; subst h; exact { hbare with }
  · exact hbare

theorem levelState_ne_active (present : Bool) : levelState present ≠ .active := by
  cases present <;> decide

/-- A presence report retires an ACTIVE port, or moves one that takes no part (R128). -/
theorem presenceEffect_stationed {s : State} (hh : HandleLaw s) (hs : Stationed s) (p : Port)
    (lostSeen present : Bool) : Stationed (presenceEffect p lostSeen present s) := by
  unfold presenceEffect
  split
  · split
    · exact retire_stationed hh hs p (levelState_ne_active present)
    · rename_i hp
      exact setPortState_stationed hs hp (levelState_ne_active present)
  · split
    · rename_i habsent
      simp only [Bool.and_eq_true, beq_iff_eq] at habsent
      exact setPortState_stationed hs (by rw [habsent.2]; decide) (by decide)
    · exact hs

/-- A commit makes targets of members only, and the sender is ACTIVE (R51, R126). -/
theorem committed_stationed {s : State} (hs : Stationed s) {p : Port} (hp : (s.port p).portState = .active)
    (g tag flags len dl : Byte) (r : RecordIndex) : Stationed (committed p g tag flags len dl r s) := by
  have hgroup (k : GroupNo) : ((committed p g tag flags len dl r s).group k).members = (s.group k).members ∧
      ((committed p g tag flags len dl r s).group k).anchor = (s.group k).anchor ∧
      ((committed p g tag flags len dl r s).group k).state = (s.group k).state := by
    rw [committed_group]
    split <;> exact ⟨rfl, rfl, rfl⟩
  obtain ⟨hmembers, hanchor, hstate⟩ := hgroup 0
  have hportState := (committed_delivered p g tag flags len dl r s).portState
  refine ⟨?_, fun q => ?_, fun q hq => ?_⟩
  · rw [OpenStation, hstate, hanchor]; exact hs.station
  · rw [hmembers, hportState]; exact hs.members q
  · rw [hportState] at hq
    obtain ⟨hbare, hgroups, htarget, hsender⟩ := hs.inactive q hq
    have hqp := ne_of_inactive hp hq
    have hnot : q ∉ (s.targetsOf p g flags).map Target.port := by
      rw [targetsOf_ports, snapshot_eq, List.mem_filter, (hgroups (groupNo g)).member]
      simp
    refine ⟨?_, fun k => ?_, fun k => ?_, fun k => ?_⟩
    · rw [committed_port, if_neg (Ne.symm hqp), portAfter, if_neg hnot]
      exact hbare
    · obtain ⟨hmembers, hanchor, -⟩ := hgroup k
      exact ⟨by rw [hmembers]; exact (hgroups k).member, by rw [hanchor]; exact (hgroups k).anchor⟩
    · have hk := htarget k
      rw [State.isOpenTarget, State.message] at hk ⊢
      rw [committed_record]
      split
      · rw [Option.any_some, messageSent_outcomeOf, if_neg hnot]
        rfl
      · exact hk
    · have hk := hsender k
      rw [State.sentBy, State.message] at hk ⊢
      rw [committed_record]
      split
      · exact beq_eq_false_iff_ne.2 (Ne.symm hqp)
      · exact hk

/-- FETCH gives a held entry to a port with a delivery, which is ACTIVE (R70). -/
theorem fetchConfirmed_stationed {s : State} (hs : Stationed s) {p : Port} (hp : (s.port p).portState = .active)
    (h : Handle) : Stationed (fetchConfirmed p h s) := by
  have hportState := (fetchConfirmed_coreOnly p h s).portState
  refine ⟨hs.station, fun q => by rw [hportState]; exact hs.members q, fun q hq => ?_⟩
  rw [hportState] at hq
  obtain ⟨hbare, hgroups, htarget, hsender⟩ := hs.inactive q hq
  have hqp := ne_of_inactive hp hq
  refine ⟨?_, hgroups, fun k => ?_, fun k => ?_⟩
  · rw [fetchConfirmed_port, if_neg (Ne.symm hqp)]
    exact hbare
  · have hk := htarget k
    rw [State.isOpenTarget] at hk ⊢
    rw [fetchConfirmed_message]
    split
    · simpa only [Option.any_map, Function.comp_def, outcomeOf_setTarget, if_neg hqp] using hk
    · exact hk
  · have hk := hsender k
    rw [State.sentBy] at hk ⊢
    rw [fetchConfirmed_message]
    split
    · rw [Option.any_map]
      exact hk
    · exact hk

/-! ## The steps -/

/-- Whatever tables the effect of a command gives, the ACTIVE ports are the members of group 0 and no other port takes
part. -/
def EffectStations (effect : CoreResult) : Prop := ∀ t reply, effect = .ok (t, reply) → Stationed t

theorem EffectStations.ok {t : State} (reply : List Byte) (h : Stationed t) : EffectStations (.ok (t, reply)) := by
  intro u _ hu
  cases hu
  exact h

theorem EffectStations.error (f : Fault) : EffectStations (.error f) := by
  intro u _ hu
  cases hu

section Steps

variable {s : State} (hs : Stationed s)

include hs

/-- A refusal changes no table (R171); the effect follows where every check passes. -/
theorem EffectStations.judged {effect : CoreResult} {cs : List (Bool × ResultCode)}
    (h : firstFail cs = none → EffectStations effect) : EffectStations (judged s cs effect) := by
  intro t reply ht
  obtain ⟨_, _, rfl, _⟩ | ⟨hpass, he⟩ := judged_cases ht
  · exact hs
  · exact h hpass t reply he

theorem takeCommand_stationed (p : Port) (req : Request) {effect : State → CoreResult}
    (h : EffectStations (effect s)) : OnNext (takeCommand p req effect s) Stationed := by
  intro u hu
  obtain ⟨_, rfl⟩ | ⟨_, t, reply, he, rfl⟩ := takeCommand_cases hu
  · exact hs
  · exact (Recedes.of_sameTables (afterTaking_sameTables p t reply)).stationed (h t reply he)

/-- The taking of a command that is judged and, where it passes, answered OK alone. -/
theorem takeOkAlone_stationed (p : Port) {req : Request} {checks : State → List (Bool × ResultCode)}
    {effect : State → State} (h : firstFail (checks s) = none → Stationed (effect s)) :
    OnNext (takeCommand p req (fun s => judged s (checks s) (okAlone (effect s))) s) Stationed :=
  takeCommand_stationed hs p req (.judged hs fun hpass => .ok _ (h hpass))

end Steps

/-- A command whose NOT_ATTACHED check has passed is an ACTIVE port's. -/
theorem active_of_passed {s : State} {p : Port} {cs : List (Bool × ResultCode)} (hpass : firstFail cs = none)
    {code : ResultCode} (hmem : (s.notActive p, code) ∈ cs) : (s.port p).portState = .active := by
  simpa [State.notActive] using check_passed hpass hmem

/-- A group command whose FIXED_GROUP check has passed is not about group 0 (R7). -/
theorem group_ne_zero_of_passed {g : Byte} {cs : List (Bool × ResultCode)} (hpass : firstFail cs = none)
    (hmem : (fixedGroup g, .fixedGroup) ∈ cs) : groupNo g ≠ 0 := by
  simpa [fixedGroup] using check_passed hpass hmem

section Commands

variable {s : State} (hs : Stationed s)

include hs

theorem openEffect_stationed {p : Port} {g q sr jr dl : Byte} (hpass : firstFail (openChecks p g q sr jr dl s) = none) :
    Stationed (openEffect p g q sr jr dl s) := by
  have hp : (s.port p).portState = .active := active_of_passed hpass (code := .notAttached) (by simp [openChecks])
  have hg := group_ne_zero_of_passed (g := g) hpass (by simp [openChecks])
  refine ((setReserved_recedes s _).stationed hs).modGroup hg fun k hk _ => ⟨?_, ?_⟩
  · rw [has_insert, has_none, decide_eq_false (ne_of_inactive hp hk), Bool.or_false]
  · exact fun h => ne_of_inactive hp hk (Option.some.inj h).symm

theorem resizeEffect_stationed {p : Port} {g q : Byte} (hpass : firstFail (resizeChecks p g q s) = none) :
    Stationed (resizeEffect g q s) :=
  ((setReserved_recedes s _).stationed hs).modGroup (group_ne_zero_of_passed hpass (by simp [resizeChecks]))
    fun _ _ hout => ⟨hout.member, hout.anchor⟩

theorem leave_stationed {p : Port} {g : Byte} (hpass : firstFail (leaveChecks p g s) = none) :
    Stationed ((s.removeMember (groupNo g) p).withdrawGroup p (groupNo g)) :=
  (withdrawAll_recedes _ none p _).stationed
    (removeMember_stationed hs (group_ne_zero_of_passed hpass (by simp [leaveChecks])) p)

theorem enrol_stationed {p : Port} {g port : Byte} (hpass : firstFail (enrolChecks p g port s) = none) :
    Stationed ((s.addMember (groupNo g) (portNo port)).notifyPort p (portNo port)) := by
  have hnamed : (s.port (portNo port)).portState = .active :=
    active_of_passed hpass (code := .portNotActive) (by simp [enrolChecks])
  have hg := group_ne_zero_of_passed (g := g) hpass (by simp [enrolChecks])
  exact notifyPort_stationed (addMember_stationed hs hg hnamed) p hnamed

/-- An expelled port is a member, and so ACTIVE (R126). -/
theorem expel_stationed {p : Port} {g port : Byte} (hpass : firstFail (expelChecks p g port s) = none) :
    Stationed (((s.removeMember (groupNo g) (portNo port)).notifyPort p (portNo port)).withdrawGroup (portNo port)
      (groupNo g)) := by
  have hg := group_ne_zero_of_passed (g := g) hpass (by simp [expelChecks])
  have hmember := check_passed hpass (b := !s.isMember (portNo port) g) (code := .notMember) (by simp [expelChecks])
  have hnamed : (s.port (portNo port)).portState = .active := hs.active fun h => by
    rw [State.isMember, (h.groups _).member] at hmember
    cases hmember
  exact (withdrawAll_recedes _ none _ _).stationed
    (notifyPort_stationed (removeMember_stationed hs hg _) p hnamed)

theorem sendEffect_stations {p : Port} {g tag flags len dl : Byte}
    (hpass : firstFail (sendChecks p g tag flags len dl s) = none) :
    EffectStations (sendEffect p g tag flags len dl s) := by
  have hp : (s.port p).portState = .active := active_of_passed hpass (code := .notAttached) (by simp [sendChecks])
  unfold sendEffect
  split
  · exact .error _
  · rename_i r hr
    split
    · exact .error _
    · exact .ok _ ((closeIfSettled_recedes _ none r).stationed (committed_stationed hs hp g tag flags len dl r))

theorem fetchEffect_stations {p : Port} (hpass : firstFail (fetchChecks p s) = none) :
    EffectStations (fetchEffect p s) := by
  have hp : (s.port p).portState = .active := active_of_passed hpass (code := .notAttached) (by simp [fetchChecks])
  unfold fetchEffect
  split
  · exact .ok _ hs
  · split
    · exact .error _
    · refine .ok _ ?_
      split
      · exact fetchConfirmed_stationed hs hp _
      · exact (fetchUnconfirmed_recedes p _ s).stationed hs

theorem readEffect_stations (p : Port) (index generation offset count : Byte) :
    EffectStations (readEffect p index generation offset count s) := by
  unfold readEffect
  split
  · exact .error _
  · exact .ok _ hs

theorem answerEffect_stations {p : Port} {index generation : Byte} {effect : Handle → State → State}
    (h : ∀ k, Recedes s (effect k s)) : EffectStations (answerEffect p index generation effect s) := by
  unfold answerEffect
  split
  · exact .ok _ hs
  · exact .ok _ ((h _).stationed hs)

theorem takeEffect_stations (p : Port) : EffectStations (takeEffect p s) := by
  unfold takeEffect
  split
  · exact .ok _ hs
  · exact .ok _ ((dropDone_recedes s p _).stationed hs)

theorem execSend_stationed (p : Port) (g tag flags len dl : Byte) :
    OnNext (execSend p g tag flags len dl s) Stationed := by
  refine takeCommand_stationed hs p _ fun t reply ht => ?_
  obtain ⟨u, hu, rfl⟩ := execSend_effect ht
  exact (modPfe_recedes u p _).stationed (EffectStations.judged hs (sendEffect_stations hs) _ _ hu)

theorem execTickTaking_stationed : OnNext (execTickTaking s) Stationed := by
  unfold execTickTaking
  split
  · exact onNext_next (((((setTickCount_recedes s 0).trans (lowerRemaining_recedes _ _)).trans
      (setArbiter_recedes _ _ _)).trans (.of_sameTables (endTick_sameTables _))).stationed hs)
  · exact onNext_next hs

theorem execRecordExpiry_stationed (r : RecordIndex) : OnNext (execRecordExpiry r s) Stationed := by
  unfold execRecordExpiry
  split
  · exact onNext_next (((expire_recedes s r).trans (.of_sameTables (endTick_sameTables _))).stationed hs)
  · exact onNext_next hs

theorem execPresenceReport_stationed (hh : HandleLaw s) (p : Port) : OnNext (execPresenceReport p s) Stationed := by
  unfold execPresenceReport
  split
  · have heffect := presenceEffect_stationed ((SameRoutes.of_traffic (modPfe_sameTraffic s p Pfe.takePresence)).handleLaw
      hh) ((modPfe_recedes s p Pfe.takePresence).stationed hs) p (s.pfe p).presence.lostSeen (s.pfe p).presence.level
    exact onNext_next (((setArbiter_recedes _ _ _).trans (.of_sameTables (refresh_sameTables _))).stationed heffect)
  · exact onNext_next hs

end Commands

theorem pfeEvent_recedes (p : Port) (act : Summary → Pfe → Pfe) (s : State) : Recedes s (pfeEvent p act s) :=
  modPfe_recedes s p _

theorem byteEventIf_recedes (p : Port) (case : Pfe → Bool) (b : Byte) (s : State) : Recedes s (byteEventIf p case b s) := by
  obtain ⟨_, h⟩ | ⟨_, h⟩ := byteEventIf_cases p case b s <;> rw [h]
  · exact pfeEvent_recedes p _ s
  · exact .refl s

theorem noteUnderway_recedes (p : Port) (granted : Bool) (s t : State) : Recedes t (noteUnderway p granted s t) := by
  unfold noteUnderway
  split
  · exact setArbiter_recedes t _ _
  · exact .refl t

theorem reset_group (g : GroupNo) : State.reset.group g = if g = 0 then Group.station else Group.freed := by
  simp only [State.reset, State.group, Fin.getElem_fin, Vector.getElem_set, Vector.getElem_replicate]
  exact if_congr (by rw [Fin.ext_iff, eq_comm]; rfl) rfl rfl

theorem stationed_reset : Stationed State.reset := by
  have hmessage (r : RecordIndex) : State.reset.message r = none := by rw [State.message, reset_record]
  have hgroup (g : GroupNo) (q : Port) : Outside (State.reset.group g) q := by
    rw [reset_group]
    split
    · exact ⟨has_none q, by simp [Group.station, Group.freed]⟩
    · exact ⟨has_none q, by simp [Group.freed]⟩
  refine ⟨?_, fun p => ?_, fun p _ => ⟨?_, fun g => hgroup g p, fun r => ?_, fun r => ?_⟩⟩
  · rw [OpenStation, reset_group, if_pos rfl]; exact ⟨rfl, rfl⟩
  · rw [(hgroup 0 p).member, reset_port]; simp [CorePort.reset]
  · rw [reset_port]; exact ⟨rfl, rfl, rfl, rfl, rfl, rfl⟩
  · rw [State.isOpenTarget, hmessage]; rfl
  · rw [State.sentBy, hmessage]; rfl

/-- After hub reset every port is ABSENT and takes no part (R126). -/
theorem execHubReset_stationed (s : State) :
    CompletesWith (execHubReset s) fun t => (∀ p, (t.port p).portState = .absent) ∧ Stationed t := by
  have hsame : Recedes State.reset ((State.reset.setPool s.pool).setPending s.pending) :=
    .of_eq (fun _ => rfl) (fun _ => rfl) fun _ => rfl
  have hrecedes := hsame.trans (mapPfes_recedes _ fun p f => { f with sel := (s.pfe p).sel })
  exact ⟨_, rfl, fun p => by rw [hrecedes.portState, reset_port]; rfl, hrecedes.stationed stationed_reset⟩

/-- Every command keeps the ACTIVE ports in group 0 and every other port without a part. -/
theorem exec_stationed (i : Instr) {s : State} (hh : HandleLaw s) (hs : Stationed s) :
    OnNext (exec i s) Stationed := by
  cases i with dsimp only [exec]
  | hubReset =>
    obtain ⟨t, ht, -, hstationed⟩ := execHubReset_stationed s
    exact ht ▸ onNext_next hstationed
  | tick prs => exact onNext_next (((setTickCount_recedes s _).trans (mapPfes_recedes _ _)).stationed hs)
  | idleSelect p | select p _ | deselect p | byteCompletion p _ =>
    exact onNext_next ((pfeEvent_recedes p _ s).stationed hs)
  | unknownCommand p _ | commandPost p _ | nop p | status p | clearFault p | setMask p _ =>
    exact onNext_next ((byteEventIf_recedes p _ _ s).stationed hs)
  | attach p => exact takeOkAlone_stationed hs p fun _ => attachEffect_stationed hs p
  | detach p => exact takeOkAlone_stationed hs p fun _ => retire_stationed hh hs p (by decide)
  | clearNotices p choice =>
    exact takeOkAlone_stationed hs p fun _ => (clearNoticesEffect_recedes p choice s).stationed hs
  | openGroup p _ _ _ _ _ => exact takeOkAlone_stationed hs p (openEffect_stationed hs)
  | resize p _ _ => exact takeOkAlone_stationed hs p (resizeEffect_stationed hs)
  | close p g =>
    exact takeOkAlone_stationed hs p fun hpass => (enterClosing_recedes s
      (group_ne_zero_of_passed (g := g) hpass (by simp [closeChecks])) p (some p)).stationed hs
  | join p g =>
    exact takeOkAlone_stationed hs p fun hpass =>
      addMember_stationed hs (group_ne_zero_of_passed (g := g) hpass (by simp [joinChecks]))
        (active_of_passed hpass (code := .notAttached) (by simp [joinChecks]))
  | leave p g => exact takeOkAlone_stationed hs p (leave_stationed hs)
  | enrol p g port => exact takeOkAlone_stationed hs p (enrol_stationed hs)
  | expel p g port => exact takeOkAlone_stationed hs p (expel_stationed hs)
  | groupInfo p _ | roster p | poolInfo p => exact takeCommand_stationed hs p _ (.judged hs fun _ => .ok _ hs)
  | send p g tag flags len dl => exact execSend_stationed hs p g tag flags len dl
  | fetch p => exact takeCommand_stationed hs p _ (.judged hs (fetchEffect_stations hs))
  | read p index generation offset count =>
    exact takeCommand_stationed hs p _ (.judged hs fun _ => readEffect_stations hs p index generation offset count)
  | ack p index generation code =>
    exact takeCommand_stationed hs p _
      (.judged hs fun _ => answerEffect_stations hs fun h => ackEffect_recedes p code h s)
  | nack p index generation code =>
    exact takeCommand_stationed hs p _
      (.judged hs fun _ => answerEffect_stations hs fun h => nackEffect_recedes p code h s)
  | take p => exact takeCommand_stationed hs p _ (.judged hs fun _ => takeEffect_stations hs p)
  | tickTaking => exact execTickTaking_stationed hs
  | recordExpiry r => exact execRecordExpiry_stationed hs r
  | presenceReport p => exact execPresenceReport_stationed hs hh p
  | _ => -- RECALL, whose constructor has the name of a Mathlib command
    exact onNext_next (((byteEventIf_recedes _ _ _ s).trans (noteUnderway_recedes _ _ _ _)).stationed hs)

/-- Settles O57: a command gives a part to ACTIVE ports alone, behind its checks, and a retirement takes the port out of
everything before its state changes. -/
theorem inactivePortsTakeNoPart : Obligations.InactivePortsTakeNoPart := by
  refine ⟨fun s hh _ hstation hinactive => ?_, fun s => ?_⟩
  · have hs : Stationed s := stationed_iff.2 ⟨hstation, hinactive⟩
    intro t ht
    refine stationed_iff.1 ?_
    unfold step at ht
    cases hpending : s.pending with
    | nil =>
      rw [hpending] at ht
      exact onNext_next hs t ht
    | cons i rest =>
      rw [hpending] at ht
      exact exec_stationed i ((SameRoutes.of_traffic (setPending_sameTraffic s rest)).handleLaw hh)
        ((setPending_recedes s rest).stationed hs) t ht
  · obtain ⟨t, ht, habsent, hstationed⟩ := execHubReset_stationed s
    exact ⟨t, ht, habsent, stationed_iff.1 hstationed⟩

end Sys2Proof.Machine.Inactive

namespace Sys2Proof.Machine.Select

open Laws

/-! ## The bits of the status byte (R176) -/

/-- One flag of each bit place, bit 7 first. -/
def flagByte (b7 b6 b5 b4 b3 b2 b1 b0 : Bool) : Byte :=
  bitAt 7 b7 ||| bitAt 6 b6 ||| bitAt 5 b5 ||| bitAt 4 b4 ||| bitAt 3 b3 ||| bitAt 2 b2 ||| bitAt 1 b1 ||| bitAt 0 b0

theorem statusByte_eq_flagByte (m : Summary) (f : Pfe) :
    statusByte m f = flagByte m.attached m.delivery m.urgentHead m.completion f.faulted m.notice m.windowFull
      f.pendingFlag := rfl

theorem getLsbD_bitAt (place i : Nat) (b : Bool) (hi : i < 8) :
    (bitAt place b).getLsbD i = (b && decide (i = place)) := by
  cases b
  case false => simp [bitAt]
  case true =>
    simp only [bitAt, if_true, BitVec.getLsbD_shiftLeft, BitVec.getLsbD_one, hi, Bool.true_and]
    grind

theorem flagByte_bits (b7 b6 b5 b4 b3 b2 b1 b0 : Bool) :
    let b := flagByte b7 b6 b5 b4 b3 b2 b1 b0
    b.getLsbD 7 = b7 ∧ b.getLsbD 6 = b6 ∧ b.getLsbD 5 = b5 ∧ b.getLsbD 4 = b4 ∧
    b.getLsbD 3 = b3 ∧ b.getLsbD 2 = b2 ∧ b.getLsbD 1 = b1 ∧ b.getLsbD 0 = b0 := by
  simp only [flagByte, BitVec.getLsbD_or, getLsbD_bitAt, Nat.reduceLT]
  simp

/-- The status byte shows the summary's flags, the fault latch and the command slot. -/
theorem statusByte_bits (m : Summary) (f : Pfe) :
    let b := statusByte m f
    b.getLsbD 7 = decide (m.portState = .active) ∧ b.getLsbD 6 = decide (m.urgent + m.normal ≠ 0) ∧
    b.getLsbD 5 = decide (m.urgent ≠ 0) ∧ b.getLsbD 4 = decide (m.waiting ≠ 0) ∧
    b.getLsbD 3 = decide (f.fault.code ≠ .clear) ∧ b.getLsbD 2 = (m.missed || m.roster) ∧
    b.getLsbD 1 = decide (m.inTransit + m.waiting = 4) ∧ b.getLsbD 0 = f.slot.isSome := by
  have hpositive : ∀ n : Nat, decide (1 ≤ n) = decide (n ≠ 0) := fun n => decide_eq_decide.mpr Nat.one_le_iff_ne_zero
  obtain ⟨h7, h6, h5, h4, h3, h2, h1, h0⟩ := flagByte_bits m.attached m.delivery m.urgentHead m.completion f.faulted
    m.notice m.windowFull f.pendingFlag
  rw [statusByte_eq_flagByte]
  refine ⟨h7.trans ?_, h6.trans (hpositive _), h5.trans (hpositive _), h4.trans (hpositive _), h3.trans ?_, h2,
    h1.trans ?_, h0⟩
  · exact beq_eq_decide ..
  · simp [Pfe.faulted, bne, beq_eq_decide]
  · exact beq_eq_decide ..

/-! ## The assertion of SELn (R125, R144 to R146) -/

theorem select_of_present {m : Summary} {sck : Bool} {f : Pfe} (hsel : f.sel = false) (hm : m.portState ≠ .absent) :
    f.select m sck =
      { f with
        txn := .cmd, mode := if sck then .mode3 else .mode0, sel := true, sdo := some (statusByte m f)
        capturedStatus := statusByte m f, command := none, toCome := 0, params := [], stagingMarked := false
        shortReply := [], replyRest := [], idleCount := 0 } := by
  simp [Pfe.select, Pfe.dropCommand, hsel, hm]

theorem select_of_ignored {m : Summary} {sck : Bool} {f : Pfe} (h : f.sel = true ∨ m.portState = .absent) :
    f.select m sck = { f with sel := true } := by
  unfold Pfe.select
  split
  next hsel => rw [← hsel]
  next hsel => rw [if_pos (h.resolve_left hsel)]

/-- An event of a PFE leaves everything outside that PFE. -/
theorem pfeEvent_onlyPfe (p : Port) (act : Summary → Pfe → Pfe) (s : State) : OnlyPfe p s (pfeEvent p act s) := by
  refine ⟨fun q hq => pfeEvent_pfe_ne p act s q hq.symm, pfeEvent_port p act s,
    ⟨pfeEvent_group p act s, pfeEvent_record p act s, pfeEvent_reservedTotal p act s, pfeEvent_freeList p act s,
      fun a => ?_⟩,
    pfeEvent_tickCount p act s, pfeEvent_ringNext p act s, pfeEvent_underway p act s, pfeEvent_pending p act s⟩
  rw [pfeEvent_pool]

theorem exec_select (p : Port) (sck : Bool) (s : State) :
    exec (.select p sck) s = .next (pfeEvent p (fun m f => f.select m sck) s) := rfl

/-- Settles O4, by the two cases of the assertion and the bits of the status byte. -/
theorem selectStartsOrIsIgnored : Obligations.SelectStartsOrIsIgnored := by
  intro s p sck
  refine ⟨fun hsel hm => ⟨_, exec_select p sck s, ?_, ?_, pfeEvent_onlyPfe ..⟩,
    fun h => ⟨_, exec_select p sck s, ?_, pfeEvent_onlyPfe ..⟩⟩
  · rw [pfeEvent_pfe_same, select_of_present hsel hm]
    exact statusByte_bits ..
  · rw [pfeEvent_pfe_same, select_of_present hsel hm]
    rfl
  · rw [pfeEvent_pfe_same, select_of_ignored h]
    rfl

end Sys2Proof.Machine.Select

namespace Sys2Proof.Machine.Takings

open Laws MessagePool FrontEnds Sending Receiving Expiry Granting

/-! ## Every taking of a command slot answers (R150, R151, R159, R171, R172) -/

/-- The result codes are 00h to 17h (10 section 10.4). -/
theorem resultCode_toNat_le (code : ResultCode) : code.byte.toNat ≤ 0x17 := by
  cases code <;> decide

/-- `t` has the PFEs, the tick slot and the queue of commands of `s`: all that a taking shows beside the core's tables
is still to come. -/
structure BesideTables (s t : State) : Prop where
  pfe       : ∀ q, t.pfe q = s.pfe q
  tickCount : t.tickCount = s.tickCount
  pending   : t.pending = s.pending

theorem BesideTables.of_coreOnly {s t : State} (h : CoreOnly s t) : BesideTables s t :=
  ⟨h.pfe, h.tickCount, h.pending⟩

theorem BesideTables.refl (s : State) : BesideTables s s := ⟨fun _ => rfl, rfl, rfl⟩

theorem BesideTables.trans {s t u : State} (h : BesideTables s t) (k : BesideTables t u) : BesideTables s u :=
  ⟨fun q => (k.pfe q).trans (h.pfe q), k.tickCount.trans h.tickCount, k.pending.trans h.pending⟩

theorem BesideTables.modPort (s : State) (p : Port) (f : CorePort → CorePort) : BesideTables s (s.modPort p f) :=
  ⟨fun _ => rfl, rfl, rfl⟩

theorem retire_besideTables (s : State) (p : Port) (final : PortState) : BesideTables s (s.retire p final) := by
  rw [State.retire, State.setPortState]
  exact .trans (.of_coreOnly (retire_beforeState_coreOnly s p)) (.modPort _ p _)

theorem commit_besideTables (p : Port) (g tag flags len dl : Byte) (r : RecordIndex) (s : State) :
    BesideTables s (commit p g tag flags len dl r s).1 :=
  .trans (t := commitRecord p g tag flags len dl r s) ⟨fun _ => rfl, rfl, rfl⟩
    (.of_coreOnly ((commitTargets_coreOnly p g tag flags r _).trans (closeIfSettled_coreOnly _ none r)))

theorem presenceEffect_besideTables (p : Port) (lostSeen present : Bool) (s : State) :
    BesideTables s (presenceEffect p lostSeen present s) := by
  unfold presenceEffect
  split
  · split
    · exact retire_besideTables s p _
    · exact .modPort s p _
  · split
    · exact .modPort s p _
    · exact .refl s

/-- A whole reply begins with a result code; one that is not OK stands alone, and no table is changed (R171, R172). -/
def WholeReply (s t : State) (reply : List Byte) : Prop :=
  ∃ (code : ResultCode) (rest : List Byte), reply = code.byte :: rest ∧ (code ≠ .ok → rest = [] ∧ t = s)

theorem wholeReply_ok (s t : State) (rest : List Byte) : WholeReply s t (ResultCode.ok.byte :: rest) :=
  ⟨.ok, rest, rfl, fun h => absurd rfl h⟩

/-- Where the effect of a command gives tables and a reply, the reply is whole and nothing beside the tables is
changed. -/
def EffectAnswers (s : State) (effect : CoreResult) : Prop :=
  ∀ t reply, effect = .ok (t, reply) → BesideTables s t ∧ WholeReply s t reply

theorem EffectAnswers.ok {s t : State} (rest : List Byte) (h : BesideTables s t) :
    EffectAnswers s (.ok (t, ResultCode.ok.byte :: rest)) := by
  intro u _ hu
  cases hu
  exact ⟨h, wholeReply_ok s t rest⟩

theorem EffectAnswers.error (s : State) (f : Fault) : EffectAnswers s (.error f) := by
  intro u _ hu
  cases hu

theorem EffectAnswers.refuse (s : State) (code : ResultCode) : EffectAnswers s (refuse s code) := by
  intro u _ hu
  cases hu
  exact ⟨.refl s, code, [], rfl, fun _ => ⟨rfl, rfl⟩⟩

theorem EffectAnswers.judged {s : State} {effect : CoreResult} (cs : List (Bool × ResultCode))
    (h : EffectAnswers s effect) : EffectAnswers s (judged s cs effect) := by
  cases hc : firstFail cs with
  | none => rwa [judged_passed hc]
  | some code =>
    rw [judged_refused hc]
    exact .refuse s code

theorem sendEffect_effectAnswers (p : Port) (g tag flags len dl : Byte) (s : State) :
    EffectAnswers s (sendEffect p g tag flags len dl s) := by
  unfold sendEffect
  split
  · exact .error s _
  · split
    · exact .error s _
    · exact .ok _ (commit_besideTables p g tag flags len dl _ s)

theorem fetchEffect_effectAnswers (p : Port) (s : State) : EffectAnswers s (fetchEffect p s) := by
  unfold fetchEffect
  split
  · exact .refuse s _
  · split
    · exact .error s _
    · refine .ok _ ?_
      split
      · exact .of_coreOnly (fetchConfirmed_coreOnly p _ s)
      · exact .of_coreOnly (fetchUnconfirmed_coreOnly p _ s)

theorem readEffect_effectAnswers (p : Port) (index generation offset count : Byte) (s : State) :
    EffectAnswers s (readEffect p index generation offset count s) := by
  unfold readEffect
  split
  · exact .error s _
  · exact .ok _ (.refl s)

theorem answerEffect_effectAnswers (p : Port) (index generation : Byte) {effect : Handle → State → State} {s : State}
    (h : ∀ k, CoreOnly s (effect k s)) : EffectAnswers s (answerEffect p index generation effect s) := by
  unfold answerEffect
  split
  · exact .refuse s _
  · exact .ok _ (.of_coreOnly (h _))

theorem takeEffect_effectAnswers (p : Port) (s : State) : EffectAnswers s (takeEffect p s) := by
  unfold takeEffect
  split
  · exact .refuse s _
  · exact .ok _ (.modPort s p _)

/-- The taking answered with a result code, and a refusal changed no table; `before` is the PFE of port p but for the
reply, the slot and ATNn. -/
def AnswersWhole (before : Pfe) (p : Port) (s t : State) : Prop :=
  ∃ (code : Byte) (rest : List Byte), code.toNat ≤ 0x17 ∧ AnsweredFrom before p (code :: rest) s t ∧
    (code ≠ 0x00 → rest = [] ∧ SameTables s t)

/-- A code that is not OK comes with a refusal alone. -/
theorem WholeReply.answersWhole {s t u : State} {before : Pfe} {p : Port} {reply : List Byte}
    (hreply : WholeReply s t reply) (hanswered : AnsweredFrom before p reply s u)
    (hrefused : t = s → SameTables s u) : AnswersWhole before p s u := by
  obtain ⟨code, rest, rfl, hrefusal⟩ := hreply
  refine ⟨code.byte, rest, resultCode_toNat_le code, hanswered, fun hcode => ?_⟩
  obtain ⟨hrest, hsame⟩ := hrefusal fun hok => hcode (hok ▸ rfl)
  exact ⟨hrest, hrefused hsame⟩

theorem takeCommand_answersWhole (p : Port) {req : Request} {effect : State → CoreResult} {s : State}
    (htakes : s.takes p req = true) (h : EffectAnswers s (effect s)) :
    OnNext (takeCommand p req effect s) (AnswersWhole (s.pfe p) p s) := by
  intro u hu
  obtain ⟨hidle, -⟩ | ⟨-, t, reply, he, rfl⟩ := takeCommand_cases hu
  · rw [htakes] at hidle
    cases hidle
  · obtain ⟨hbeside, hreply⟩ := h t reply he
    refine hreply.answersWhole
      (answeredFrom_afterTaking (hbeside.pfe p) (fun q _ => hbeside.pfe q) hbeside.tickCount hbeside.pending) ?_
    rintro rfl
    exact afterTaking_sameTables p t reply

/-- The taking of a command that is judged and, where it passes, answered OK alone. -/
theorem takeOkAlone_answersWhole (p : Port) {req : Request} {checks : State → List (Bool × ResultCode)}
    {effect : State → State} {s : State} (htakes : s.takes p req = true) (h : BesideTables s (effect s)) :
    OnNext (takeCommand p req (fun s => judged s (checks s) (okAlone (effect s))) s)
      (AnswersWhole (s.pfe p) p s) :=
  takeCommand_answersWhole p htakes (.judged (checks s) (.ok [] h))

/-- The taking of a SEND answers too, and releases the staging buffer of its port alone (R148). -/
theorem execSend_answersWhole (p : Port) (g tag flags len dl : Byte) {s : State}
    (htakes : s.takes p (.send g tag flags len dl) = true) :
    OnNext (execSend p g tag flags len dl s) (AnswersWhole (s.pfe p).stagingReleased p s) := by
  intro u hu
  obtain ⟨hidle, -⟩ | ⟨-, t, reply, he, rfl⟩ := takeCommand_cases hu
  · rw [htakes] at hidle
    cases hidle
  · obtain ⟨v, hjudged, rfl⟩ := execSend_effect he
    obtain ⟨hbeside, hreply⟩ := EffectAnswers.judged _ (sendEffect_effectAnswers p g tag flags len dl s) v reply hjudged
    refine hreply.answersWhole
      (answeredFrom_afterTaking ?_ (fun q hq => ?_) hbeside.tickCount hbeside.pending) ?_
    · rw [releaseStaging, modPfe_pfe_same, hbeside.pfe]
      rfl
    · rw [releaseStaging, modPfe_pfe_ne _ _ _ _ hq.symm, hbeside.pfe]
    · rintro rfl
      exact sameTables_afterTaking p reply (releaseStaging_port p v)
        ⟨releaseStaging_group p v, releaseStaging_record p v, rfl, rfl, fun _ => rfl⟩

/-- Settles O21, request by request: every effect writes a whole reply and stays within the core's tables, SEND but for
the staging buffer. -/
theorem everyTakingAnswers : Obligations.EveryTakingAnswers := by
  intro s p req htakes
  cases req with dsimp only [commandOf, exec]
  | attach => exact takeOkAlone_answersWhole p htakes ⟨fun _ => rfl, rfl, rfl⟩
  | detach => exact takeOkAlone_answersWhole p htakes (retire_besideTables s p .detached)
  | clearNotices choice =>
    exact takeOkAlone_answersWhole p htakes (.of_coreOnly (clearNoticesEffect_coreOnly p choice s))
  | openGroup g q sr jr dl =>
    exact takeOkAlone_answersWhole p htakes (.of_coreOnly (openEffect_coreOnly p g q sr jr dl s))
  | close g => exact takeOkAlone_answersWhole p htakes (.of_coreOnly (enterClosing_coreOnly s _ p _))
  | join g => exact takeOkAlone_answersWhole p htakes (.of_coreOnly (.modGroup s _ _))
  | leave g => exact takeOkAlone_answersWhole p htakes (.of_coreOnly (leave_coreOnly p _ s))
  | enrol g port =>
    exact takeOkAlone_answersWhole p htakes (.of_coreOnly ((CoreOnly.modGroup s _ _).trans (notifyPort_coreOnly _ p _)))
  | expel g port => exact takeOkAlone_answersWhole p htakes (.of_coreOnly (expel_coreOnly p _ _ s))
  | resize g q => exact takeOkAlone_answersWhole p htakes (.of_coreOnly (resizeEffect_coreOnly g q s))
  | groupInfo | roster | poolInfo =>
    exact takeCommand_answersWhole p htakes (.judged _ (.ok _ (.refl s)))
  | send g tag flags len dl => exact execSend_answersWhole p g tag flags len dl htakes
  | fetch => exact takeCommand_answersWhole p htakes (.judged _ (fetchEffect_effectAnswers p s))
  | read index generation offset count =>
    exact takeCommand_answersWhole p htakes (.judged _ (readEffect_effectAnswers p index generation offset count s))
  | ack index generation code =>
    exact takeCommand_answersWhole p htakes
      (.judged _ (answerEffect_effectAnswers p index generation fun k => ackEffect_coreOnly p code k s))
  | nack index generation code =>
    exact takeCommand_answersWhole p htakes
      (.judged _ (answerEffect_effectAnswers p index generation fun k => nackEffect_coreOnly p code k s))
  | take => exact takeCommand_answersWhole p htakes (.judged _ (takeEffect_effectAnswers p s))

/-! ## A taking brings the slots that wait nearer (R150) -/

/-- The arbiter goes on behind the slot it has granted, so each slot farther on comes nearer. -/
theorem distance_behind_lt {k : Fin 13} {granted waiter : Slot} (hnear : distance k granted ≤ distance k waiter)
    (hne : waiter ≠ granted) : distance (granted.position + 1) waiter < distance k waiter := by
  have hpos : waiter.position.val ≠ granted.position.val := fun h => hne (position_injective (Fin.ext h))
  simp only [distance, Fin.le_def, Fin.lt_def, Fin.val_sub, Fin.val_add, Fin.val_one] at hnear ⊢
  omega

/-- A grant in which no taking was in progress is the nearest request (R150). -/
theorem distance_le_of_grant {s : State} {granted waiter : Slot} (hgrant : s.grant = some granted)
    (hunderway : s.underway = none) (hwaiter : s.requests waiter = true) :
    distance s.ringNext granted ≤ distance s.ringNext waiter := by
  have hmid : s.midTick = false := by
    by_contra h
    rw [grant_of_midTick (Bool.not_eq_false _ ▸ h)] at hgrant
    cases hgrant
  rw [grant_eq_find? hmid hunderway] at hgrant
  exact distance_le_of_find? hgrant hwaiter

/-- A taking in progress is a command slot's (R152). -/
theorem underway_none_of_grant {s : State} {slot : Slot} (hgrant : s.grant = some slot)
    (hslot : ∀ p, slot ≠ .command p) : s.underway = none := by
  cases hunderway : s.underway with
  | none => rfl
  | some p =>
    cases hmid : s.midTick with
    | true => rw [grant_of_midTick hmid] at hgrant; cases hgrant
    | false =>
      rw [grant_of_underway hmid hunderway] at hgrant
      exact absurd (Option.some.inj hgrant).symm (hslot p)

/-- A requesting slot at no distance is the slot granted (R150). -/
theorem grant_of_distance_zero {s : State} {waiter : Slot} (hwaiter : s.requests waiter = true)
    (hzero : distance s.ringNext waiter = 0) (hmid : s.midTick = false) (hunderway : s.underway = none) :
    s.grant = some waiter := by
  have hsome : s.grant.isSome = true := by
    rw [grant_eq_find? hmid hunderway]
    exact List.find?_isSome.2 ⟨waiter, mem_rotateLeft _ waiter, hwaiter⟩
  obtain ⟨granted, hgrant⟩ := Option.isSome_iff_exists.1 hsome
  have hnear := distance_le_of_grant hgrant hunderway hwaiter
  rw [hzero, Fin.le_zero_iff, ← hzero] at hnear
  rw [hgrant, position_injective (sub_left_injective hnear)]

theorem requests_command_congr {s t : State} {p : Port} (hslot : (t.pfe p).slot = (s.pfe p).slot)
    (htxn : (t.pfe p).txn = (s.pfe p).txn) (hcommand : (t.pfe p).command = (s.pfe p).command) :
    t.requests (.command p) = s.requests (.command p) := by
  simp only [State.requests, Pfe.recalling, hslot, htxn, hcommand]

theorem requests_presence_congr {s t : State} {p : Port} (h : (t.pfe p).presence = (s.pfe p).presence) :
    t.requests (.presence p) = s.requests (.presence p) := by
  simp only [State.requests, h]

/-- Where ATNn alone follows its causes, both slots of a port request as they did. -/
theorem requests_of_atn {s t : State} {p : Port} {atn : Bool} (h : t.pfe p = { s.pfe p with atn := atn }) :
    t.requests (.command p) = s.requests (.command p) ∧ t.requests (.presence p) = s.requests (.presence p) :=
  ⟨requests_command_congr (by rw [h]) (by rw [h]) (by rw [h]), requests_presence_congr (by rw [h])⟩

/-- No taking is in progress, and the waiting slot is still requesting and nearer. -/
def Closer (s : State) (waiter : Slot) (t : State) : Prop :=
  t.underway = none ∧ t.requests waiter = true ∧ distance t.ringNext waiter < distance s.ringNext waiter

theorem closer_of_taking {s t : State} {granted waiter : Slot} (hgrant : s.grant = some granted)
    (hunderway : s.underway = none) (hwaiter : s.requests waiter = true) (hne : waiter ≠ granted)
    (hring : t.ringNext = granted.position + 1) (hdone : t.underway = none)
    (hsame : t.requests waiter = s.requests waiter) : Closer s waiter t :=
  ⟨hdone, hsame.trans hwaiter, hring ▸ distance_behind_lt (distance_le_of_grant hgrant hunderway hwaiter) hne⟩

/-- The taking of a command slot touches no other slot. -/
theorem requests_of_answeredFrom {before : Pfe} {p : Port} {reply : List Byte} {s t : State} {waiter : Slot}
    (h : AnsweredFrom before p reply s t) (hpresence : before.presence = (s.pfe p).presence)
    (hne : waiter ≠ .command p) : t.requests waiter = s.requests waiter := by
  obtain ⟨hpfe, hother, -, htick, -⟩ := h
  cases waiter with
  | command q =>
    have hq : q ≠ p := fun hqp => hne (hqp ▸ rfl)
    exact (requests_of_atn (hother q hq)).1
  | presence q =>
    by_cases hq : q = p
    · subst hq
      exact requests_presence_congr (by rw [hpfe, hpresence])
    · exact (requests_of_atn (hother q hq)).2
  | tick => simp only [State.requests, htick]

theorem command_closer {s : State} {waiter : Slot} (hwaiter : s.requests waiter = true) {p : Port} {req : Request}
    (htakes : s.takes p req = true) (hunderway : s.underway = none) (hne : waiter ≠ .command p) :
    OnNext (exec (commandOf p req) s) (Closer s waiter) := by
  intro t ht
  obtain ⟨hgrant, -⟩ := takes_iff.1 htakes
  obtain ⟨code, rest, -, hanswered, -⟩ := everyTakingAnswers s p req htakes t ht
  have hpresence : (if isSend req then (s.pfe p).stagingReleased else s.pfe p).presence = (s.pfe p).presence := by
    split <;> rfl
  have hsame := requests_of_answeredFrom hanswered hpresence hne
  obtain ⟨-, -, -, -, hring, hdone, -⟩ := hanswered
  exact closer_of_taking hgrant hunderway hwaiter hne hring hdone hsame

/-- The hub once port p's presence slot is taken (R127, R128). -/
def presenceTaken (p : Port) (s : State) : State :=
  ((presenceEffect p (s.pfe p).presence.lostSeen (s.pfe p).presence.level (s.modPfe p Pfe.takePresence)).granted
    (.presence p)).refresh

theorem exec_presenceReport {p : Port} {s : State} (h : s.grant = some (.presence p)) :
    exec (.presenceReport p) s = .next (presenceTaken p s) := if_pos h

/-- The taking of a presence slot clears that slot and moves the arbiter's place, beside the core's tables (R127). -/
theorem presenceTaken_frame (p : Port) (s : State) :
    (∀ q, ∃ m, (presenceTaken p s).pfe q = ((s.modPfe p Pfe.takePresence).pfe q).driveAtn m) ∧
      (presenceTaken p s).tickCount = s.tickCount ∧ (presenceTaken p s).underway = none ∧
      (presenceTaken p s).ringNext = (Slot.presence p).position + 1 := by
  have hbeside := presenceEffect_besideTables p (s.pfe p).presence.lostSeen (s.pfe p).presence.level
    (s.modPfe p Pfe.takePresence)
  refine ⟨fun q => ?_, ?_, refresh_underway _, refresh_ringNext _⟩
  · rw [presenceTaken, refresh_pfe, State.granted, setArbiter_pfe, hbeside.pfe]
    exact ⟨_, rfl⟩
  · rw [presenceTaken, refresh_tickCount, State.granted, setArbiter_tickCount, hbeside.tickCount, modPfe_tickCount]

theorem presence_closer {s : State} {waiter : Slot} (hwaiter : s.requests waiter = true) {p : Port}
    (hgrant : s.grant = some (.presence p)) (hne : waiter ≠ .presence p) :
    CompletesWith (exec (.presenceReport p) s) (Closer s waiter) := by
  obtain ⟨hpfe, htick, hdone, hring⟩ := presenceTaken_frame p s
  refine ⟨_, exec_presenceReport hgrant,
    closer_of_taking hgrant (underway_none_of_grant hgrant nofun) hwaiter hne hring hdone ?_⟩
  cases waiter with
  | command q =>
    obtain ⟨m, hq⟩ := hpfe q
    refine (requests_of_atn hq).1.trans ?_
    by_cases h : p = q
    · subst h
      refine requests_command_congr ?_ ?_ ?_ <;> rw [modPfe_pfe_same] <;> rfl
    · refine requests_command_congr ?_ ?_ ?_ <;> rw [modPfe_pfe_ne _ _ _ _ h]
  | presence q =>
    obtain ⟨m, hq⟩ := hpfe q
    have h : p ≠ q := fun h => hne (h ▸ rfl)
    exact (requests_of_atn hq).2.trans (requests_presence_congr (by rw [modPfe_pfe_ne _ _ _ _ h]))
  | tick => simp only [State.requests, htick]

/-- The taking of the tick slot clears the count and touches no other slot (R98). -/
theorem tick_closer {s : State} {waiter : Slot} (hwaiter : s.requests waiter = true) (hgrant : s.grant = some .tick)
    (hne : waiter ≠ .tick) : CompletesWith (exec .tickTaking s) (Closer s waiter) := by
  obtain ⟨-, hpfe, -⟩ := Ticking.tickTaken_frame s
  obtain ⟨-, hhead, hnone⟩ := Ticking.tickTaken_counts s
  obtain ⟨-, hring, hunderway, -, hatn⟩ := endTick_frame (Ticking.tickTaken s)
  have hsame (q : Port) : (Ticking.tickTaken s).endTick.pfe q =
      { s.pfe q with atn := ((Ticking.tickTaken s).endTick.pfe q).atn } := by
    rw [← hpfe q]
    exact hatn q
  refine ⟨_, Ticking.exec_tickTaking hgrant, closer_of_taking hgrant (underway_none_of_grant hgrant nofun) hwaiter hne
    (hring.trans hhead) (hunderway.trans hnone) ?_⟩
  cases waiter with
  | command q => exact (requests_of_atn (hsame q)).1
  | presence q => exact (requests_of_atn (hsame q)).2
  | tick => exact absurd rfl hne

/-- Settles O19: the arbiter grants the nearest request and goes on behind it, and a taking touches no slot but its
own. -/
theorem takingsBringWaitersNearer : Obligations.TakingsBringWaitersNearer := by
  intro s waiter hwaiter
  refine ⟨Nat.le_of_lt_succ (waiter.position - s.ringNext).isLt, fun hzero hmid hunderway => ?_,
    fun p req htakes hunderway hne => command_closer hwaiter htakes hunderway hne,
    fun p hgrant hne => presence_closer hwaiter hgrant hne, fun hgrant hne => tick_closer hwaiter hgrant hne⟩
  exact grant_of_distance_zero hwaiter (Fin.ext hzero) hmid hunderway

/-! ## What the arbiter does not grant does not happen (log entry 2) -/

/-- Settles O20, request by request. -/
theorem ungrantedTakingsDoNotHappen : Obligations.UngrantedTakingsDoNotHappen := by
  refine fun s => ⟨fun p req hidle => ?_, fun p h => if_neg h, fun h => if_neg h, fun r h => if_neg h⟩
  cases req with dsimp only [commandOf, exec]
  | attach | detach | clearNotices | openGroup | close | join | leave | enrol | expel | resize | groupInfo | roster
  | poolInfo | send | fetch | read | ack | nack | take => exact takeCommand_idle hidle

end Sys2Proof.Machine.Takings

namespace Sys2Proof.Machine.ByteEvents

open Laws FrontEnds Select Ticking

/-! ## The rows that are the completion of a byte (log entry 3) -/

/-- An event of port p's PFE completes, and is seen at that PFE alone. -/
theorem completesWith_pfeEvent {p : Port} {act : Summary → Pfe → Pfe} {s : State} {g : Pfe}
    (h : (act (s.port p).summary (s.pfe p)).driveAtn (s.port p).summary = g) :
    CompletesWith (.next (pfeEvent p act s)) fun t => t.pfe p = g ∧ OnlyPfe p s t :=
  ⟨_, rfl, (pfeEvent_pfe_same p act s).trans h, pfeEvent_onlyPfe p act s⟩

theorem completesWith_byte {p : Port} {b : Byte} {s : State} {g : Pfe}
    (h : ((s.pfe p).byte (s.port p).summary b).driveAtn (s.port p).summary = g) :
    CompletesWith (exec (.byteCompletion p b) s) fun t => t.pfe p = g ∧ OnlyPfe p s t :=
  completesWith_pfeEvent h

/-- Where no idle fault is due, a row's byte completes in the row's case. -/
theorem byteEventIf_of_case {p : Port} {case : Pfe → Bool} {s : State} (b : Byte) (hdue : (s.pfe p).idleDue = false)
    (hcase : case (s.pfe p) = true) : byteEventIf p case b s = byteEvent p b s :=
  if_pos ((congrArg case (idleFault_notDue hdue)).trans hcase)

theorem atCommand_of_cmd {f : Pfe} (h : f.txn = .cmd) : f.atCommand = true := beq_iff_eq.2 h

/-- Settles O9: each row runs the byte event in its own case. -/
theorem namedByteEventsAreByteCompletions : Obligations.NamedByteEventsAreByteCompletions := by
  intro s p b hdue
  have hrow {case : Pfe → Bool} (b : Byte) (hcase : case (s.pfe p) = true) :
      Host.Outcome.next (byteEventIf p case b s) = exec (.byteCompletion p b) s :=
    congrArg Host.Outcome.next (byteEventIf_of_case b hdue hcase)
  refine ⟨fun hcmd => ?_, fun hparam hcommand hlast => hrow b ?_, fun hcore => hrow b hcore⟩
  · have hat := atCommand_of_cmd hcmd
    exact ⟨hrow _ hat, hrow _ hat, hrow _ hat, hrow _ hat, fun hundefined => hrow b (by simp [hat, hundefined])⟩
  · simp [Pfe.atMask, hparam, hcommand, hlast]

/-! ## Deselect and the idle fault (R145, R153 to R155) -/

theorem recordFault_eq (code : FaultCode) (f : Pfe) : f.recordFault code = { f with fault := f.fault.after code } := by
  rw [← recordFault_fault]
  rfl

/-- The latch once a deselect has ended the transaction (R153, R154). -/
def latchAtDeselect (f : Pfe) : FaultLatch :=
  if f.txn = .param then f.fault.after .shortCommand
  else if f.txn = .payload then f.fault.after .truncatedSend
  else f.fault

/-- A deselect ends the transaction from every state; in PARAM and PAYLOAD it is a framing fault (R145, R154). -/
theorem deselect_eq {f : Pfe} (hsel : f.sel = true) :
    f.deselect =
      { f with
        txn := .idle, sel := false, sdo := none, command := none, toCome := 0, params := []
        stagingInUse := f.stagingInUse && !(f.stagingMarked && (decide (f.txn = .param) || decide (f.txn = .payload)))
        stagingMarked := false, shortReply := [], replyRest := [], fault := latchAtDeselect f } := by
  cases htxn : f.txn <;>
    simp [Pfe.deselect, Pfe.deselectFault, Pfe.dropCommand, latchAtDeselect, hsel, htxn, recordFault_eq,
      releaseIfMarked_eq]

/-- Settles O5, by the one equation of a deselect. -/
theorem deselectEndsTransaction : Obligations.DeselectEndsTransaction := by
  intro s p hsel hdue
  refine completesWith_pfeEvent ?_
  rw [idleFault_notDue hdue, deselect_eq hsel]
  rfl

/-- Two events of one PFE, one after the other. -/
theorem pfeEvent_pfeEvent (p : Port) (act before : Summary → Pfe → Pfe) (s : State) :
    pfeEvent p act (pfeEvent p before s) = pfeEvent p (fun m f => act m ((before m f).driveAtn m)) s := by
  simp [pfeEvent, State.modPfe, State.pfe, State.port]

/-- Two events are the same where they make the same of the PFE they act on, but for ATNn. -/
theorem pfeEvent_congr {p : Port} {act act' : Summary → Pfe → Pfe} {s : State}
    (h : (act (s.port p).summary (s.pfe p)).driveAtn (s.port p).summary =
      (act' (s.port p).summary (s.pfe p)).driveAtn (s.port p).summary) : pfeEvent p act s = pfeEvent p act' s := by
  simp only [pfeEvent, State.modPfe, h]

/-- An idle-select fault that is due ends in DISCARD, where none is due (R155). -/
theorem idleFault_discards {f : Pfe} (h : f.idleDue = true) (m : Summary) :
    f.idleFault.txn = .discard ∧ (f.idleFault.driveAtn m).idleFault = f.idleFault.driveAtn m := by
  refine ⟨by rw [Pfe.idleFault, if_pos h], idleFault_notDue ?_⟩
  exact idleFault_idleDue f

/-- A deselect drives ATNn anew, whatever its level was. -/
theorem deselect_driveAtn (m : Summary) (f : Pfe) : (f.driveAtn m).deselect.driveAtn m = f.deselect.driveAtn m := by
  by_cases hsel : f.sel = true
  · rw [deselect_eq hsel, deselect_eq (f := f.driveAtn m) hsel]
    rfl
  · have hkept (g : Pfe) (hg : ¬ g.sel = true) : g.deselect = g := if_neg hg
    rw [hkept f hsel, hkept (f.driveAtn m) hsel]
    rfl

/-- The next deselect, byte or tick of a PFE records a fault that is due by itself: it makes no difference that
IDLE_SELECT has recorded it before (log entry 4). -/
theorem deselect_after_idleFault {f : Pfe} (h : f.idleDue = true) (m : Summary) :
    (f.idleFault.driveAtn m).idleFault.deselect.driveAtn m = f.idleFault.deselect.driveAtn m := by
  obtain ⟨-, hstays⟩ := idleFault_discards h m
  rw [hstays, deselect_driveAtn]

theorem byte_after_idleFault {f : Pfe} (h : f.idleDue = true) (m : Summary) (b : Byte) :
    ((f.idleFault.driveAtn m).byte m b).driveAtn m = (f.byte m b).driveAtn m := by
  obtain ⟨hdiscard, -⟩ := idleFault_discards h m
  have hrecorded : f.byte m b = f.idleFault.byte m b := by rw [Pfe.byte, Pfe.byte, idleFault_idempotent]
  rw [hrecorded, byte_discard m b hdiscard, byte_discard m b (f := f.idleFault.driveAtn m) hdiscard]
  rfl

theorem tick_after_idleFault {f : Pfe} (h : f.idleDue = true) (m : Summary) (sample : Bool) :
    ((f.idleFault.driveAtn m).tick sample).driveAtn m = (f.tick sample).driveAtn m := by
  obtain ⟨-, hstays⟩ := idleFault_discards h m
  rw [Pfe.tick, hstays, Pfe.tick, countIdle_eq, countIdle_eq, samplePresence_eq, samplePresence_eq]
  rfl

/-- The hub after IDLE_SELECT at port p. -/
abbrev idleSelected (p : Port) (s : State) : State := pfeEvent p (fun _ f => f.idleFault) s

theorem exec_tick_idleSelected {p : Port} {s : State} (h : (s.pfe p).idleDue = true) (prs : PortSet) :
    exec (.tick prs) s = exec (.tick prs) (idleSelected p s) := by
  refine congrArg Host.Outcome.next (State.ext_accessors (fun q => ?_) ?_ ?_ ?_ ?_ ?_ ?_ ?_ ?_ ?_ ?_)
  · rw [mapPfes_pfe, mapPfes_pfe, setTickCount_pfe, setTickCount_pfe]
    by_cases hq : p = q
    · subst hq
      rw [pfeEvent_pfe_same]
      exact (tick_after_idleFault h _ _).symm
    · rw [pfeEvent_pfe_ne _ _ _ _ hq]
      rfl
  all_goals simp -- outside the PFEs

/-- Settles O16: the fault as the statement writes it out is `Pfe.idleRecorded`, and after it nothing is due. -/
theorem idleSelectFaults : Obligations.IdleSelectFaults := by
  intro s p
  have hpfe : (idleSelected p s).pfe p = (s.pfe p).idleRecorded.driveAtn (s.port p).summary := by
    rw [pfeEvent_pfe_same, idleRecorded_eq_idleFault]
  refine ⟨idleSelected p s, rfl, fun hdue => ?_, fun hnot => ?_, pfeEvent_onlyPfe .., fun hdue => ?_⟩
  · rw [hpfe, Pfe.idleRecorded, if_pos hdue]
    rfl
  · rw [hpfe, Pfe.idleRecorded, if_neg hnot]
    rfl
  · have hdue : (s.pfe p).idleDue = true := (idleDue_iff _).2 hdue
    refine ⟨congrArg Host.Outcome.next ?_, fun b => congrArg Host.Outcome.next ?_, exec_tick_idleSelected hdue⟩
    · rw [pfeEvent_pfeEvent]
      exact pfeEvent_congr (deselect_after_idleFault hdue _).symm
    · rw [byteEvent, byteEvent, pfeEvent_pfeEvent]
      exact pfeEvent_congr (byte_after_idleFault hdue _ b).symm

/-! ## Bytes that only shift (R144, R145, R147) -/

/-- Settles O7, transaction state by transaction state. -/
theorem laterBytesShiftOnly : Obligations.LaterBytesShiftOnly := by
  intro s p b
  refine ⟨fun h => completesWith_byte ?_, fun h => completesWith_byte ?_, fun h c rest hrest => completesWith_byte ?_,
    fun h hrest => completesWith_byte ?_, fun h => completesWith_byte ?_⟩
  · rw [byte_await _ b h]
    rfl
  · rw [byte_discard _ b h]
    rfl
  · rw [byte_reply _ b h, hrest]
    rfl
  · rw [byte_reply _ b h, hrest]
    rfl
  · rw [byte_idle _ b h]
    rfl

/-! ## Undefined command codes (R153, R154, R169) -/

/-- The gaps of the command code table (10 section 10.1). -/
def UndefinedCode (n : Nat) : Prop := (0x08 ≤ n ∧ n ≤ 0x0F) ∨ (0x1A ≤ n ∧ n ≤ 0x1F) ∨ 0x26 ≤ n

theorem decodeCommand_of_undefined {b : Byte} (h : UndefinedCode b.toNat) : decodeCommand b = none := by
  have hdefined : ∀ row ∈ commandTable, ¬ UndefinedCode row.code.toNat := by
    unfold UndefinedCode
    decide
  refine List.find?_eq_none.2 fun row hrow hcode => hdefined row hrow ?_
  rwa [beq_iff_eq.1 hcode]

theorem commandByte_undefined (m : Summary) {b : Byte} (h : decodeCommand b = none) (f : Pfe) :
    f.commandByte m b = { f with txn := .discard, fault := f.fault.after .unknownCommand } := by
  rw [Pfe.commandByte, h, recordFault_eq]

/-- Settles O8: no row of the table has such a code. -/
theorem unknownCommandIsDiscarded : Obligations.UnknownCommandIsDiscarded := by
  intro s p b hcmd hdue hcode
  have hnone := decodeCommand_of_undefined hcode
  refine ⟨Option.isNone_iff_eq_none.2 hnone, ?_⟩
  obtain ⟨hnamed, -⟩ := namedByteEventsAreByteCompletions s p b hdue
  obtain ⟨-, -, -, -, hunknown⟩ := hnamed hcmd
  rw [hunknown hnone]
  refine completesWith_byte ?_
  rw [byte_cmd _ b hcmd hdue, commandByte_undefined _ hnone]
  rfl

/-! ## Command, parameter and payload bytes (R145, R147, R148) -/

/-- A SEND's command byte marks a free staging buffer, and no other does (R148). -/
theorem markStaging_eq (c : CommandCode) (f : Pfe) :
    f.markStaging c =
      { f with
        staging := if c = .send ∧ f.stagingInUse = false then [] else f.staging
        stagingInUse := f.stagingInUse || decide (c = .send)
        stagingMarked := f.stagingMarked || (decide (c = .send) && !f.stagingInUse) } := by
  unfold Pfe.markStaging
  cases f
  split <;> simp_all

theorem markStaging_of_ne {c : CommandCode} (hc : c ≠ .send) (f : Pfe) : f.markStaging c = f :=
  if_neg fun h => hc h.1

/-- The PFE once the byte of command `c` has been received. -/
def withCommand (c : CommandCode) (f : Pfe) : Pfe := { f with command := some c, params := [], idleCount := 0 }

/-- The PFE once the last byte `b` of a command has been received, which leaves these parameters; a payload byte is
staged where this SEND marked the buffer (R148). -/
def withLastByte (b : Byte) (params : List Byte) (f : Pfe) : Pfe :=
  { f with
    params := params, toCome := 0, idleCount := 0
    staging := if f.txn = .payload ∧ f.stagingMarked = true then f.staging ++ [b] else f.staging }

section Receiving

variable (m : Summary) (b : Byte) {f : Pfe} (hdue : f.idleDue = false)

include hdue

/-- The command byte of a command with parameters. -/
theorem byte_command_params {row : CommandRow} (h : f.txn = .cmd) (hrow : decodeCommand b = some row)
    (hparams : 1 ≤ row.params) :
    f.byte m b =
      { f with
        txn := .param, command := some row.command, params := [], toCome := row.params
        staging := if row.command = .send ∧ f.stagingInUse = false then [] else f.staging
        stagingInUse := f.stagingInUse || decide (row.command = .send)
        stagingMarked := f.stagingMarked || (decide (row.command = .send) && !f.stagingInUse)
        idleCount := 0, sdo := some 0x00 } := by
  simp only [byte_cmd m b h hdue, Pfe.commandByte, hrow, markStaging_eq]
  rw [if_neg (Nat.one_le_iff_ne_zero.1 hparams)]
  rfl

/-- The command byte of a command without parameters completes it. -/
theorem byte_command_complete {row : CommandRow} (h : f.txn = .cmd) (hrow : decodeCommand b = some row)
    (hparams : row.params = 0) (hsend : row.command ≠ .send) :
    f.byte m b = ((withCommand row.command f).complete m row.command).nextOut := by
  simp only [byte_cmd m b h hdue, Pfe.commandByte, hrow, markStaging_of_ne hsend]
  rw [if_pos hparams]
  rfl

/-- A parameter byte that is not the last. -/
theorem byte_param_more (h : f.txn = .param) (hcommand : f.command.isSome = true) (hcome : 2 ≤ f.toCome) :
    f.byte m b =
      { f with params := f.params ++ [b], toCome := f.toCome - 1, idleCount := 0, sdo := some 0x00 } := by
  obtain ⟨c, hc⟩ := Option.isSome_iff_exists.1 hcommand
  simp only [byte_param m b h hdue, Pfe.parameterByte, hc]
  rw [if_pos (by omega)]
  simp only [Pfe.nextOut, h]

/-- The last parameter byte of a SEND with a payload, whose length is the fourth parameter (log entry 16). -/
theorem byte_param_payload {len : Byte} (h : f.txn = .param) (hc : f.command = some .send) (hcome : f.toCome = 1)
    (hlen : (f.params ++ [b])[3]? = some len) (hpay : 1 ≤ len.toNat) :
    f.byte m b =
      { f with
        txn := .payload, params := f.params ++ [b], toCome := len.toNat, idleCount := 0, sdo := some 0x00 } := by
  have hbytes : payloadBytes .send (f.params ++ [b]) = len.toNat := by
    rw [payloadBytes, if_pos rfl, List.getD_eq_getElem?_getD, hlen]
    rfl
  simp only [byte_param m b h hdue, Pfe.parameterByte, hc, hcome, hbytes]
  rw [if_neg (by omega), if_pos hpay]
  rfl

/-- The last parameter byte of a command without a payload completes it. -/
theorem byte_param_complete {c : CommandCode} (h : f.txn = .param) (hc : f.command = some c) (hcome : f.toCome = 1)
    (hpay : payloadBytes c (f.params ++ [b]) = 0) :
    f.byte m b = ((withLastByte b (f.params ++ [b]) f).complete m c).nextOut := by
  simp only [byte_param m b h hdue, Pfe.parameterByte, withLastByte, h, hc, hcome, hpay, reduceCtorEq, false_and,
    if_false]
  rw [if_neg (by omega), if_neg (by omega)]

/-- A payload byte that is not the last. -/
theorem byte_payload_more (h : f.txn = .payload) (hcommand : f.command.isSome = true) (hcome : 2 ≤ f.toCome) :
    f.byte m b =
      { f with
        staging := if f.stagingMarked then f.staging ++ [b] else f.staging
        toCome := f.toCome - 1, idleCount := 0, sdo := some 0x00 } := by
  obtain ⟨c, hc⟩ := Option.isSome_iff_exists.1 hcommand
  simp only [byte_payload m b h hdue, Pfe.payloadByte, hc]
  rw [if_pos (by omega)]
  simp only [Pfe.nextOut, h]

/-- The last payload byte completes the command. -/
theorem byte_payload_complete {c : CommandCode} (h : f.txn = .payload) (hc : f.command = some c)
    (hcome : f.toCome = 1) : f.byte m b = ((withLastByte b f.params f).complete m c).nextOut := by
  simp only [byte_payload m b h hdue, Pfe.payloadByte, withLastByte, h, hc, hcome, true_and]
  rw [if_neg (by omega)]

end Receiving

/-- Settles O6, byte by byte. -/
theorem commandBytesAreReceived : Obligations.CommandBytesAreReceived := by
  intro s p b hdue
  refine ⟨fun row hcmd hrow hparams => completesWith_byte ?_, fun hparam hcommand hcome => completesWith_byte ?_,
    fun len hparam hcommand hcome hlen hpay => completesWith_byte ?_,
    fun hpayload hcommand hcome => completesWith_byte ?_⟩
  · rw [byte_command_params _ b hdue hcmd hrow hparams]
    rfl
  · rw [byte_param_more _ b hdue hparam hcommand hcome]
    rfl
  · rw [byte_param_payload _ b hdue hparam hcommand hcome hlen hpay]
    rfl
  · rw [byte_payload_more _ b hdue hpayload hcommand hcome]
    rfl

/-! ## Posting (R148, R149) -/

/-- A core command that is complete is posted: the slot is empty, and a SEND has marked the staging buffer. -/
def Posts (c : CommandCode) (f : Pfe) : Prop := f.slot = none ∧ (c = .send → f.stagingMarked = true)

theorem not_posts_iff {c : CommandCode} {f : Pfe} :
    ¬ Posts c f ↔ (f.slot.isSome || (c == .send && !f.stagingMarked)) = true := by
  simp only [Posts, Bool.or_eq_true, Bool.and_eq_true, beq_iff_eq, Option.isSome_iff_ne_none, Bool.not_eq_true']
  grind

theorem requestOf_local {c : CommandCode} (hc : c ∈ localCommands) (params : List Byte) : requestOf c params = none := by
  simp only [localCommands, List.mem_cons, List.not_mem_nil, or_false] at hc
  obtain rfl | rfl | rfl | rfl | rfl := hc <;> rfl

/-- Only core commands make a request (R149). -/
theorem core_of_requestOf {c : CommandCode} {params : List Byte} {req : Request}
    (h : requestOf c params = some req) : c ∉ localCommands := by
  intro hc
  rw [requestOf_local hc] at h
  cases h

section Completing

variable (m : Summary) {c : CommandCode} {f : Pfe} {req : Request} (hreq : requestOf c f.params = some req)

include hreq

/-- A core command that is posted shifts FFh until its reply (R147, R149). -/
theorem complete_posts (h : Posts c f) :
    (f.complete m c).nextOut =
      { f with txn := .await, slot := some req, stagingMarked := false, sdo := some 0xFF } := by
  simp only [complete_of_core m f (core_of_requestOf hreq), Pfe.completeCore, hreq]
  rw [if_neg fun hbusy => not_posts_iff.2 hbusy h]
  rfl

/-- BUSY is shifted at once, and a staging buffer that this SEND had marked is released (R148, R149). -/
theorem complete_busy (h : ¬ Posts c f) :
    (f.complete m c).nextOut =
      { f with
        txn := .reply, shortReply := [0x17], sdo := some 0x17, replyRest := []
        stagingInUse := f.stagingInUse && !f.stagingMarked, stagingMarked := false } := by
  simp only [complete_of_core m f (core_of_requestOf hreq), Pfe.completeCore, hreq]
  rw [if_pos (not_posts_iff.1 h), Pfe.answerBusy, releaseIfMarked_eq]
  rfl

end Completing

/-- Settles O10: each of the six rows of the table completes a core command other than SEND. -/
theorem commandByteIsPosted : Obligations.CommandByteIsPosted := by
  intro s p b c req hcmd hdue hmark hcommand
  obtain ⟨hrow, hreq, hsend⟩ :
      decodeCommand b = some ⟨b, c, true, 0⟩ ∧ requestOf c [] = some req ∧ c ≠ .send := by
    obtain ⟨rfl, rfl, rfl⟩ | ⟨rfl, rfl, rfl⟩ | ⟨rfl, rfl, rfl⟩ | ⟨rfl, rfl, rfl⟩ | ⟨rfl, rfl, rfl⟩ | ⟨rfl, rfl, rfl⟩ :=
      hcommand <;> exact ⟨rfl, rfl, nofun⟩
  obtain ⟨-, -, hnamed⟩ := namedByteEventsAreByteCompletions s p b hdue
  rw [hnamed (by simp [Pfe.completesCore, hcmd, hrow])]
  have hbyte := byte_command_complete (s.port p).summary b hdue hcmd hrow rfl hsend
  refine ⟨_, rfl, fun hslot => ?_, fun hslot => ?_, pfeEvent_onlyPfe ..⟩
  · rw [byteEvent, pfeEvent_pfe_same, hbyte, complete_posts (f := withCommand c (s.pfe p)) _ hreq
      ⟨hslot, fun h => absurd h hsend⟩]
    simp only [withCommand, Pfe.driveAtn, hmark]
    rfl
  · rw [byteEvent, pfeEvent_pfe_same, hbyte, complete_busy (f := withCommand c (s.pfe p)) _ hreq fun h => hslot h.1]
    simp only [withCommand, Pfe.driveAtn, hmark, Bool.not_false, Bool.and_true]
    rfl

theorem payloadBytes_eq_zero {c : CommandCode} {params : List Byte} (h : c = .send → params[3]? = some 0x00) :
    payloadBytes c params = 0 := by
  unfold payloadBytes
  split
  next hc =>
    rw [List.getD_eq_getElem?_getD, h hc]
    rfl
  next => rfl

/-- Byte `b` is the last of command `c` and leaves these parameters: the last parameter where no payload follows, or
the last payload byte of a SEND. -/
def LastByte (b : Byte) (c : CommandCode) (params : List Byte) (f : Pfe) : Prop :=
  (f.txn = .param ∧ params = f.params ++ [b] ∧ (c = .send → params[3]? = some 0x00)) ∨
    (f.txn = .payload ∧ params = f.params ∧ c = .send)

section LastByte

variable {b : Byte} {c : CommandCode} {params : List Byte} {f : Pfe} (hlast : LastByte b c params f)
  (hc : f.command = some c) (hcome : f.toCome = 1)

include hlast hc hcome

theorem LastByte.byte (m : Summary) (hdue : f.idleDue = false) :
    f.byte m b = ((withLastByte b params f).complete m c).nextOut := by
  obtain ⟨hparam, rfl, hlen⟩ | ⟨hpayload, rfl, -⟩ := hlast
  · exact byte_param_complete m b hdue hparam hc hcome (payloadBytes_eq_zero hlen)
  · exact byte_payload_complete m b hdue hpayload hc hcome

theorem LastByte.completesCore (hcore : c ∉ localCommands) : Pfe.completesCore b f = true := by
  obtain ⟨hparam, rfl, hlen⟩ | ⟨hpayload, -, -⟩ := hlast
  · have hmask : c ≠ .setMask := fun h => hcore (by simp [h, localCommands])
    simp [Pfe.completesCore, hparam, hc, hcome, hmask, payloadBytes_eq_zero hlen]
  · simp [Pfe.completesCore, hpayload, hcome]

end LastByte

/-- Settles O11: whichever byte is the last, the command is complete with all its bytes, and then posted or BUSY. -/
theorem lastByteIsPosted : Obligations.LastByteIsPosted := by
  intro s p b c params req hdue hc hcome hreq hlast
  have hlast : LastByte b c params (s.pfe p) := hlast
  obtain ⟨-, -, hnamed⟩ := namedByteEventsAreByteCompletions s p b hdue
  rw [hnamed (hlast.completesCore hc hcome (core_of_requestOf hreq))]
  have hbyte := hlast.byte hc hcome (s.port p).summary hdue
  refine ⟨_, rfl, fun hposted => ?_, fun hbusy => ?_, pfeEvent_onlyPfe ..⟩
  · rw [byteEvent, pfeEvent_pfe_same, hbyte, complete_posts (f := withLastByte b params (s.pfe p)) _ hreq hposted]
    rfl
  · rw [byteEvent, pfeEvent_pfe_same, hbyte, complete_busy (f := withLastByte b params (s.pfe p)) _ hreq hbusy]
    rfl

/-! ## SET MASK and RECALL (R152, R158, R161) -/

/-- The causes of ATNn, as the statements write them out (R161). -/
theorem attention_eq (m : Summary) (f : Pfe) :
    attention m f =
      ((f.mask.d && decide (m.urgent + m.normal ≠ 0)) || (f.mask.c && decide (m.waiting ≠ 0)) ||
        (f.mask.f && decide (f.fault.code ≠ .clear)) || (f.mask.n && (m.missed || m.roster))) := by
  have hpositive (n : Nat) : decide (1 ≤ n) = decide (n ≠ 0) := decide_eq_decide.2 Nat.one_le_iff_ne_zero
  simp only [attention, Summary.delivery, Summary.completion, Summary.notice, Pfe.faulted, hpositive, bne,
    beq_eq_decide, decide_not]

/-- An enable for each of bits 0 to 3, and none of the undefined bits (R158, R170). -/
theorem maskOf_eq (b : Byte) :
    maskOf b =
      if b.toNat < 16 then some { d := b.getLsbD 0, c := b.getLsbD 1, f := b.getLsbD 2, n := b.getLsbD 3 }
      else none := by
  by_cases h : b.toNat < 16
  · simp [maskOf, highBitsSet, h, Nat.not_le.2 h]
  · simp [maskOf, highBitsSet, h, Nat.not_lt.1 h]

/-- SET MASK answers OK with the new mask, or BAD_PARAM with the mask as it was (R158). -/
theorem complete_setMask (m : Summary) {b : Byte} {f : Pfe} (hparams : f.params = [b]) :
    (f.complete m .setMask).nextOut =
      { f with
        txn := .reply
        shortReply := [if b.toNat < 16 then 0x00 else 0x02], sdo := some (if b.toNat < 16 then 0x00 else 0x02)
        replyRest := []
        mask :=
          if b.toNat < 16 then { d := b.getLsbD 0, c := b.getLsbD 1, f := b.getLsbD 2, n := b.getLsbD 3 }
          else f.mask } := by
  have hcomplete : f.complete m .setMask = f.completeSetMask := rfl
  have hfirst : f.params.headD 0 = b := by rw [hparams, List.headD_cons]
  simp only [hcomplete, Pfe.completeSetMask, hfirst, maskOf_eq]
  by_cases h : b.toNat < 16
  · simp only [if_pos h]
    rfl
  · simp only [if_neg h]
    rfl

/-- Settles O14: the parameter byte of SET MASK is its last, and ATNn follows the mask that it leaves. -/
theorem setMaskReplacesMask : Obligations.SetMaskReplacesMask := by
  intro s p b hparam hcommand hparams hcome hdue
  obtain ⟨-, hnamed, -⟩ := namedByteEventsAreByteCompletions s p b hdue
  rw [hnamed hparam hcommand hcome]
  refine completesWith_byte ?_
  have hfirst : (withLastByte b ((s.pfe p).params ++ [b]) (s.pfe p)).params = [b] := by
    rw [withLastByte, hparams]
    rfl
  rw [byte_param_complete _ b hdue hparam hcommand hcome rfl, complete_setMask _ hfirst, Pfe.driveAtn, attention_eq]
  simp only [withLastByte, hparam, hparams]
  rfl

theorem complete_recall_empty (m : Summary) {f : Pfe} (h : f.replyStore = []) :
    (f.complete m .recall).nextOut =
      { f with txn := .reply, shortReply := [0x13], sdo := some 0x13, replyRest := [] } := by
  have hcomplete : f.complete m .recall = f.replyShort [ResultCode.empty.byte] := if_pos h
  rw [hcomplete]
  rfl

/-- RECALL shifts the reply store directly, and leaves it as it is (R152). -/
theorem complete_recall_shifts (m : Summary) {b : Byte} {rest : List Byte} {f : Pfe}
    (h : f.replyStore = b :: rest) :
    (f.complete m .recall).nextOut = { f with txn := .reply, sdo := some b, replyRest := rest } := by
  have hcomplete : f.complete m .recall = { f with txn := .reply, replyRest := b :: rest } := by
    rw [← h]
    exact if_neg fun hempty => by simp [h] at hempty
  rw [hcomplete]
  rfl

/-- Where the arbiter grants the slot of a RECALL that says so, its taking is the next to end (R152, log entry 6). -/
theorem noteUnderway_pfeEvent {p : Port} {granted : Bool} {s : State} (act : Summary → Pfe → Pfe)
    (hcmd : (s.pfe p).txn = .cmd) (hdue : (s.pfe p).idleDue = false)
    (hgranted : granted = true → s.grant = some (.command p)) :
    noteUnderway p granted s (pfeEvent p act s) =
      (pfeEvent p act s).setArbiter s.ringNext (if granted then some p else s.underway) := by
  cases granted with
  | false => rfl
  | true =>
    refine if_pos ?_
    simp [idleFault_notDue hdue, atCommand_of_cmd hcmd, hgranted rfl]

theorem onlyPfe_setArbiter {p : Port} {s t : State} (h : OnlyPfe p s t) (next : Fin 13) (underway : Option Port) :
    OnlyPfe p (s.setArbiter next underway) (t.setArbiter next underway) := by
  obtain ⟨hpfe, hport, hstores, htick, -, -, hpending⟩ := h
  exact ⟨hpfe, hport, hstores, htick, rfl, rfl, hpending⟩

/-- Settles O15: the command byte of RECALL completes it, and the arbiter's note touches no PFE. -/
theorem recallShiftsReplyStore : Obligations.RecallShiftsReplyStore := by
  intro s p granted hcmd hdue hgranted
  have hexec : exec (.recall p granted) s =
      .next ((byteEvent p 0x06 s).setArbiter s.ringNext (if granted then some p else s.underway)) :=
    congrArg Host.Outcome.next <| by
      rw [byteEventIf_of_case _ hdue (atCommand_of_cmd hcmd)]
      exact noteUnderway_pfeEvent _ hcmd hdue hgranted
  have hrow : decodeCommand 0x06 = some ⟨0x06, .recall, false, 0⟩ := rfl
  have hbyte := byte_command_complete (s.port p).summary 0x06 hdue hcmd hrow rfl nofun
  refine ⟨_, hexec, fun hempty => ?_, fun b rest hstore => ?_, onlyPfe_setArbiter (pfeEvent_onlyPfe ..) _ _⟩
  · rw [setArbiter_pfe, byteEvent, pfeEvent_pfe_same, hbyte,
      complete_recall_empty (f := withCommand .recall (s.pfe p)) _ hempty]
    rfl
  · rw [setArbiter_pfe, byteEvent, pfeEvent_pfe_same, hbyte,
      complete_recall_shifts (f := withCommand .recall (s.pfe p)) _ hstore]
    rfl

end Sys2Proof.Machine.ByteEvents

namespace Sys2Proof.Machine.Publishing

open Laws MessagePool Queues Expiry Ticking

/-! ## What a step makes of the summaries and of ATNn (R159, R161) -/

/-- The law of the summaries and the law of ATNn hold in `t` where each holds in `s`. -/
structure KeepsShown (s t : State) : Prop where
  summary   : SummaryLaw s → SummaryLaw t
  attention : AttentionLaw s → AttentionLaw t

theorem KeepsShown.refl (s : State) : KeepsShown s s := ⟨id, id⟩

theorem midTick_congr {s t : State} (h : ∀ r, t.message r = s.message r) : t.midTick = s.midTick := by
  simp only [State.midTick, State.dueRecord, h]

/-- An event that changes no port and no record has only ATNn to keep at its causes. -/
theorem KeepsShown.of_event {s t : State} (hport : ∀ q, t.port q = s.port q) (hmessage : ∀ r, t.message r = s.message r)
    (hatn : AttentionLaw s → AttentionLaw t) : KeepsShown s t := by
  refine ⟨?_, hatn⟩
  simp only [SummaryLaw, midTick_congr hmessage, hport]
  exact id

/-- ATNn stands as it did where neither the summaries nor the PFEs are changed. -/
theorem attentionLaw_of_same {s t : State} (hsummary : ∀ q, (t.port q).summary = (s.port q).summary)
    (hpfe : ∀ q, t.pfe q = s.pfe q) (hs : AttentionLaw s) : AttentionLaw t := fun q => by
  rw [hpfe, hsummary]
  exact hs q

/-! ## Takings: the refresh at their end (R150, R159, R160) -/

/-- Whatever the tables are, the refresh publishes them. -/
theorem refresh_published (t : State) : Published t.refresh := fun q => by
  simp only [refresh_port, summaryOf_withSummary]

/-- The refresh drives every ATNn by the summaries it publishes. -/
theorem refresh_attentionLaw (t : State) : AttentionLaw t.refresh := fun q => by
  rw [refresh_pfe, refresh_port]
  rfl

theorem refresh_keepsShown (s t : State) : KeepsShown s t.refresh :=
  ⟨fun _ => .inr (refresh_published t), fun _ => refresh_attentionLaw t⟩

/-- The taking of a command slot ends with the refresh, so it does not matter what the command does. -/
theorem takeCommand_keepsShown (p : Port) (req : Request) (effect : State → CoreResult) (s : State) :
    OnNext (takeCommand p req effect s) (KeepsShown s) := by
  intro u hu
  obtain ⟨-, rfl⟩ | ⟨-, t, reply, -, rfl⟩ := takeCommand_cases hu
  · exact .refl u
  · exact refresh_keepsShown s _

theorem execPresenceReport_keepsShown (p : Port) (s : State) : OnNext (execPresenceReport p s) (KeepsShown s) := by
  unfold execPresenceReport
  split
  · exact onNext_next (refresh_keepsShown s _)
  · exact onNext_next (.refl s)

/-! ## The tick taking and its expirations (R99, R159) -/

/-- While the tick taking goes on, the law asks nothing of the summaries and ATNn stands as it did; its end publishes
the tables (log entry 5). -/
theorem endTick_keepsShown {s t : State} (hsummary : ∀ q, (t.port q).summary = (s.port q).summary)
    (hpfe : ∀ q, t.pfe q = s.pfe q) : KeepsShown s t.endTick := by
  cases hmid : t.midTick with
  | true =>
    rw [endTick_of_midTick hmid]
    exact ⟨fun _ => .inl hmid, attentionLaw_of_same hsummary hpfe⟩
  | false =>
    rw [endTick_of_not_midTick hmid]
    exact refresh_keepsShown s t

theorem execTickTaking_keepsShown (s : State) : OnNext (execTickTaking s) (KeepsShown s) := by
  obtain ⟨hport, hpfe, -⟩ := tickTaken_frame s
  unfold execTickTaking
  split
  · exact onNext_next (endTick_keepsShown (t := tickTaken s) (fun q => by rw [hport]) hpfe)
  · exact onNext_next (.refl s)

/-- An expiry changes tables, and neither a summary nor a PFE before the taking ends. -/
theorem execRecordExpiry_keepsShown (r : RecordIndex) (s : State) : OnNext (execRecordExpiry r s) (KeepsShown s) := by
  have hcore := expire_coreOnly s r
  unfold execRecordExpiry
  split
  · exact onNext_next (endTick_keepsShown hcore.summary hcore.pfe)
  · exact onNext_next (.refl s)

/-! ## Events of the front-ends: ATNn follows at once (R161) -/

theorem pfeEvent_keepsShown (p : Port) (act : Summary → Pfe → Pfe) (s : State) : KeepsShown s (pfeEvent p act s) := by
  refine .of_event (pfeEvent_port p act s) (pfeEvent_message p act s) fun hs q => ?_
  rw [pfeEvent_port]
  by_cases h : p = q
  · subst h
    rw [pfeEvent_pfe_same, attention_driveAtn]
    rfl
  · rw [pfeEvent_pfe_ne p act s q h]
    exact hs q

theorem byteEventIf_keepsShown (p : Port) (case : Pfe → Bool) (b : Byte) (s : State) :
    KeepsShown s (byteEventIf p case b s) := by
  obtain ⟨-, h⟩ | ⟨-, h⟩ := byteEventIf_cases p case b s <;> rw [h]
  · exact pfeEvent_keepsShown p _ s
  · exact .refl s

/-- The arbiter's note of a taking in progress (R152) touches nothing that is shown. -/
theorem execRecall_keepsShown (p : Port) (granted : Bool) (s : State) :
    OnNext (execRecall p granted s) (KeepsShown s) := by
  have hbyte := byteEventIf_keepsShown p Pfe.atCommand 0x06 s
  refine onNext_next ?_
  unfold noteUnderway
  split
  · exact ⟨hbyte.summary, hbyte.attention⟩
  · exact hbyte

theorem execTick_keepsShown (prs : PortSet) (s : State) : OnNext (execTick prs s) (KeepsShown s) := by
  refine onNext_next (.of_event (fun q => ?_) (fun r => ?_) fun _ q => ?_)
  · rw [mapPfes_port, setTickCount_port]
  · rw [mapPfes_message, setTickCount_message]
  · rw [mapPfes_pfe, mapPfes_port, setTickCount_port, attention_driveAtn]
    rfl

/-! ## Hub reset (R143, R159, R161) -/

/-- After hub reset every table and its summary are empty, and no cause is enabled in a mask. -/
theorem execHubReset_keepsShown (s : State) : OnNext (execHubReset s) (KeepsShown s) := by
  refine onNext_next ⟨fun _ => .inr fun q => ?_, fun _ q => ?_⟩
  · rw [mapPfes_port, setPending_port, setPool_port, reset_port]
    rfl
  · have hreset : ((State.reset.setPool s.pool).setPending s.pending).pfe q = Pfe.reset := by
      rw [setPending_pfe, setPool_pfe]
      simp [State.reset, State.pfe]
    rw [mapPfes_pfe, hreset]
    rfl

/-! ## The steps -/

/-- Each command ends in the refresh, drives ATNn at the PFE it acts on, or changes nothing that is shown. -/
theorem exec_keepsShown (i : Instr) (s : State) : OnNext (exec i s) (KeepsShown s) := by
  cases i with dsimp only [exec]
  | hubReset => exact execHubReset_keepsShown s
  | tick prs => exact execTick_keepsShown prs s
  | idleSelect p | select p _ | deselect p | byteCompletion p _ => exact onNext_next (pfeEvent_keepsShown p _ s)
  | unknownCommand p _ | commandPost p _ | nop p | status p | clearFault p | setMask p _ =>
    exact onNext_next (byteEventIf_keepsShown p _ _ s)
  | attach | detach | clearNotices | openGroup | close | join | leave | enrol | expel | resize | groupInfo | roster
  | poolInfo | send | fetch | read | ack | nack | take => exact takeCommand_keepsShown _ _ _ s
  | tickTaking => exact execTickTaking_keepsShown s
  | recordExpiry r => exact execRecordExpiry_keepsShown r s
  | presenceReport p => exact execPresenceReport_keepsShown p s
  | _ => exact execRecall_keepsShown _ _ s -- RECALL, whose constructor has the name of a Mathlib command

theorem step_keepsShown (s : State) : OnNext (step s) (KeepsShown s) := by
  unfold step
  cases s.pending with
  | nil => exact onNext_next (.refl s)
  | cons c rest =>
    intro t ht
    have hexec := exec_keepsShown c (s.setPending rest) t ht
    exact ⟨hexec.summary, hexec.attention⟩

/-- Settles O58: a taking publishes the tables and drives ATNn by them at its end, and between takings an event drives
ATNn at its own PFE and leaves the tables and the summaries. -/
theorem everyStepKeepsPublishedState : Obligations.EveryStepKeepsPublishedState :=
  ⟨fun s hs t ht => (step_keepsShown s t ht).summary hs, fun s hs t ht => (step_keepsShown s t ht).attention hs⟩

end Sys2Proof.Machine.Publishing

namespace Sys2Proof.Machine.StatusAndNotices

open Laws Sending Receiving Answering ByteEvents

/-! ## NOP, STATUS and CLEAR FAULT (R157, R163, R168) -/

/-- A local command whose byte completes it: the PFE begins to shift the reply it has built (R145, R147). -/
theorem completesWith_localCommand {p : Port} {b : Byte} {s : State} {c : CommandCode} {g : Pfe}
    (hcmd : (s.pfe p).txn = .cmd) (hdue : (s.pfe p).idleDue = false)
    (hrow : decodeCommand b = some ⟨b, c, false, 0⟩) (hsend : c ≠ .send)
    (h : (((withCommand c (s.pfe p)).complete (s.port p).summary c).nextOut).driveAtn (s.port p).summary = g) :
    CompletesWith (exec (.byteCompletion p b) s) fun t => t.pfe p = g ∧ OnlyPfe p s t :=
  completesWith_byte (by rw [byte_command_complete _ b hdue hcmd hrow rfl hsend, h])

/-- The mask byte, bit by bit (R170). -/
theorem maskByte_eq (k : AttentionMask) :
    k.byte = (if k.d then 0x01 else 0x00) + (if k.c then 0x02 else 0x00) + (if k.f then 0x04 else 0x00) +
      (if k.n then 0x08 else 0x00) := by
  obtain ⟨d, c, f, n⟩ := k
  revert d c f n
  decide

/-- Settles O12: both are local commands, complete with their command byte, and the summary that STATUS shows is the
one published when that byte completes. -/
theorem nopAndStatusAnswer : Obligations.NopAndStatusAnswer := by
  intro s p hcmd hdue
  obtain ⟨hnamed, -⟩ := namedByteEventsAreByteCompletions s p 0x00 hdue
  obtain ⟨hnop, hstatus, -⟩ := hnamed hcmd
  rw [hnop, hstatus]
  refine ⟨completesWith_localCommand hcmd hdue (c := .nop) rfl nofun rfl,
    completesWith_localCommand hcmd hdue (c := .status) rfl nofun ?_⟩
  rw [← maskByte_eq]
  rfl

/-- With the fault latch empty cause F is false (R161, R168). -/
theorem attention_clearFault (m : Summary) (f : Pfe) :
    attention m { f with fault := ⟨.clear, false⟩ } =
      ((f.mask.d && decide (m.urgent + m.normal ≠ 0)) || (f.mask.c && decide (m.waiting ≠ 0)) ||
        (f.mask.n && (m.missed || m.roster))) := by
  simp [attention_eq]

/-- Settles O13: the command byte completes it, and ATNn is driven by the causes that are left. -/
theorem clearFaultEmptiesLatch : Obligations.ClearFaultEmptiesLatch := by
  intro s p hcmd hdue
  obtain ⟨hnamed, -⟩ := namedByteEventsAreByteCompletions s p 0x00 hdue
  obtain ⟨-, -, hclear, -⟩ := hnamed hcmd
  rw [hclear]
  refine completesWith_localCommand hcmd hdue (c := .clearFault) rfl nofun ?_
  rw [← attention_clearFault]
  rfl

/-! ## CLEAR NOTICES (R166) -/

/-- The choices of CLEAR NOTICES (10 section 10.2). -/
theorem choiceOf_isNone (choice : Byte) :
    (choiceOf choice).isNone = decide (choice ≠ 0x01 ∧ choice ≠ 0x02 ∧ choice ≠ 0x03) := by
  unfold choiceOf
  split_ifs with h1 h2 h3
  · exact (decide_eq_false fun ⟨hne, _, _⟩ => hne h1).symm
  · exact (decide_eq_false fun ⟨_, hne, _⟩ => hne h2).symm
  · exact (decide_eq_false fun ⟨_, _, hne⟩ => hne h3).symm
  · exact (decide_eq_true ⟨h1, h2, h3⟩).symm

/-- No check of R166 fails for an ACTIVE port that names a latch. -/
theorem clearNoticesChecks_pass {s : State} {p : Port} {choice : Byte} (hactive : (s.port p).portState = .active)
    (hchoice : choice = 0x01 ∨ choice = 0x02 ∨ choice = 0x03) :
    firstFail (clearNoticesChecks p choice s) = none := by
  refine firstFail_none.2 ?_
  simp only [clearNoticesChecks, List.forall_mem_cons, choiceOf_isNone, notActive_eq, hactive]
  exact ⟨rfl, by obtain rfl | rfl | rfl := hchoice <;> rfl, by simp⟩

theorem exec_clearNotices (p : Port) (choice : Byte) (s : State) :
    exec (.clearNotices p choice) s =
      takeCommand p (.clearNotices choice)
        (fun s => judged s (clearNoticesChecks p choice s) (okAlone (clearNoticesEffect p choice s))) s := rfl

/-- Port p's tables once the chosen latches are cleared (R166). -/
theorem clearNoticesEffect_port_same {choice : Byte} (hchoice : choice = 0x01 ∨ choice = 0x02 ∨ choice = 0x03)
    (p : Port) (s : State) :
    (clearNoticesEffect p choice s).port p =
      { s.port p with
        missed := if choice = 0x02 then (s.port p).missed else false
        roster := if choice = 0x01 then (s.port p).roster else false } := by
  obtain rfl | rfl | rfl := hchoice <;> simp [clearNoticesEffect, choiceOf]

theorem clearNoticesEffect_port_ne (choice : Byte) {p q : Port} (h : p ≠ q) (s : State) :
    (clearNoticesEffect p choice s).port q = s.port q := by
  unfold clearNoticesEffect
  split
  · rfl
  · exact modPort_port_ne s p _ q h

theorem clearNoticesEffect_sameStores (p : Port) (choice : Byte) (s : State) :
    SameStores s (clearNoticesEffect p choice s) := by
  unfold clearNoticesEffect
  split <;> exact ⟨fun _ => rfl, fun _ => rfl, rfl, rfl, fun _ => rfl⟩

theorem sameStores_afterTaking {s t : State} (h : SameStores s t) (p : Port) (reply : List Byte) :
    SameStores s (afterTaking p t reply) := by
  obtain ⟨hgroup, hrecord, hreserved, hfree, hbytes⟩ := h
  obtain ⟨-, hgroup', hrecord', hreserved', hfree', hbytes'⟩ := afterTaking_sameTables p t reply
  exact ⟨fun g => (hgroup' g).trans (hgroup g), fun r => (hrecord' r).trans (hrecord r), hreserved'.trans hreserved,
    hfree'.trans hfree, fun a => (hbytes' a).trans (hbytes a)⟩

/-- Settles O30: the checks of R166 are those of the statement, and a command that passes them clears latches of its own
port alone. -/
theorem clearNoticesClearsLatches : Obligations.ClearNoticesClearsLatches := by
  intro s p choice htakes
  rw [exec_clearNotices]
  refine ⟨takeCommand_refuses htakes ?_, fun hactive hchoice => ?_⟩
  · exact .cons (notActive_eq s p) fun _ => .cons (choiceOf_isNone choice) fun _ => trivial
  obtain ⟨hanswered, -⟩ := coreOnly_answered (clearNoticesEffect_coreOnly p choice s) p [0x00]
  refine ⟨_, takeCommand_passes htakes (clearNoticesChecks_pass hactive hchoice) rfl, hanswered, ?_,
    fun q hq => ?_, sameStores_afterTaking (clearNoticesEffect_sameStores p choice s) p _⟩
  · rw [afterTaking_port, clearNoticesEffect_port_same hchoice]
  · rw [SamePort, afterTaking_port, clearNoticesEffect_port_ne choice hq.symm]

end Sys2Proof.Machine.StatusAndNotices

namespace Sys2Proof.Machine.QueueAndMemory

open Laws MessagePool FrontEnds Sending Ticking Takings

/-! ## One step, by the queue of commands (log entry 7) -/

theorem step_of_empty {s : State} (h : s.pending = []) : step s = .next s := by
  unfold step
  rw [h]

theorem step_of_front {s : State} {c : Instr} {rest : List Instr} (h : s.pending = c :: rest) :
    step s = exec c (s.setPending rest) := by
  unfold step
  rw [h]

/-! ## What keeps the queue of commands and the canonical form of the pool's memory -/

/-- The same commands wait in `t` as in `s`, and the pool's memory is canonical in `t` where it is in `s`. -/
structure KeepsForm (s t : State) : Prop where
  pending : t.pending = s.pending
  form    : Memory.wf s.pool → Memory.wf t.pool

theorem KeepsForm.refl (s : State) : KeepsForm s s := ⟨rfl, id⟩

theorem KeepsForm.trans {s t u : State} (h : KeepsForm s t) (k : KeepsForm t u) : KeepsForm s u :=
  ⟨k.pending.trans h.pending, k.form ∘ h.form⟩

/-- The case of every operation but copy-in (R33): the pool's bytes are not written. -/
theorem KeepsForm.of_samePool {s t : State} (hpending : t.pending = s.pending) (hpool : t.pool = s.pool) :
    KeepsForm s t :=
  ⟨hpending, fun h => hpool ▸ h⟩

theorem KeepsForm.of_coreOnly {s t : State} (h : CoreOnly s t) : KeepsForm s t := .of_samePool h.pending h.pool

theorem modPfe_keepsForm (s : State) (p : Port) (f : Pfe → Pfe) : KeepsForm s (s.modPfe p f) :=
  .of_samePool (modPfe_pending s p f) (modPfe_pool s p f)

theorem setArbiter_keepsForm (s : State) (next : Fin 13) (underway : Option Port) :
    KeepsForm s (s.setArbiter next underway) :=
  .of_samePool (setArbiter_pending s next underway) (setArbiter_pool s next underway)

theorem retire_keepsForm (s : State) (p : Port) (final : PortState) : KeepsForm s (s.retire p final) :=
  .of_samePool (retire_besideTables s p final).pending (retire_pool s p final)

/-- A presence report writes no byte of the pool (R34, R128). -/
theorem presenceEffect_pool (p : Port) (lostSeen present : Bool) (s : State) :
    (presenceEffect p lostSeen present s).pool = s.pool := by
  unfold presenceEffect
  split
  · split
    · exact retire_pool s p _
    · rfl
  · split <;> rfl

theorem presenceEffect_keepsForm (p : Port) (lostSeen present : Bool) (s : State) :
    KeepsForm s (presenceEffect p lostSeen present s) :=
  .of_samePool (presenceEffect_besideTables p lostSeen present s).pending (presenceEffect_pool p lostSeen present s)

/-- A commit writes the pool by copy-in alone, inside the blocks of the chain (R33). -/
theorem commit_keepsForm (p : Port) (g tag flags len dl : Byte) (r : RecordIndex) (s : State) :
    KeepsForm s (commit p g tag flags len dl r s).1 := by
  refine ⟨(commit_besideTables p g tag flags len dl r s).pending, fun h => ?_⟩
  rw [commit_pool]
  exact copyIn_wf _ _ 0 s.pool h

theorem refresh_keepsForm (s : State) : KeepsForm s s.refresh := .of_samePool (refresh_pending s) (refresh_pool s)

theorem endTick_keepsForm (s : State) : KeepsForm s s.endTick := by
  unfold State.endTick
  split
  · exact .refl s
  · exact refresh_keepsForm s

/-! ## The effects of the commands -/

/-- Whatever tables the effect of a command gives, the queue of commands and the canonical form are kept. -/
def EffectKeepsForm (s : State) (effect : CoreResult) : Prop :=
  ∀ t reply, effect = .ok (t, reply) → KeepsForm s t

theorem EffectKeepsForm.ok {s t : State} (reply : List Byte) (h : KeepsForm s t) :
    EffectKeepsForm s (.ok (t, reply)) := by
  intro u _ hu
  cases hu
  exact h

theorem EffectKeepsForm.error (s : State) (f : Fault) : EffectKeepsForm s (.error f) := by
  intro u _ hu
  cases hu

theorem EffectKeepsForm.judged {s : State} {effect : CoreResult} (cs : List (Bool × ResultCode))
    (h : EffectKeepsForm s effect) : EffectKeepsForm s (judged s cs effect) := by
  intro t reply ht
  obtain ⟨_, _, rfl, _⟩ | ⟨_, he⟩ := judged_cases ht
  · exact .refl t
  · exact h t reply he

theorem sendEffect_keepsForm (p : Port) (g tag flags len dl : Byte) (s : State) :
    EffectKeepsForm s (sendEffect p g tag flags len dl s) := by
  unfold sendEffect
  split
  · exact .error s _
  · split
    · exact .error s _
    · exact .ok _ (commit_keepsForm p g tag flags len dl _ s)

theorem fetchEffect_keepsForm (p : Port) (s : State) : EffectKeepsForm s (fetchEffect p s) := by
  unfold fetchEffect
  split
  · exact .ok _ (.refl s)
  · split
    · exact .error s _
    · refine .ok _ (.of_coreOnly ?_)
      split
      · exact fetchConfirmed_coreOnly p _ s
      · exact fetchUnconfirmed_coreOnly p _ s

theorem readEffect_keepsForm (p : Port) (index generation offset count : Byte) (s : State) :
    EffectKeepsForm s (readEffect p index generation offset count s) := by
  unfold readEffect
  split
  · exact .error s _
  · exact .ok _ (.refl s)

theorem answerEffect_keepsForm (p : Port) (index generation : Byte) {effect : Handle → State → State} {s : State}
    (h : ∀ k, CoreOnly s (effect k s)) : EffectKeepsForm s (answerEffect p index generation effect s) := by
  unfold answerEffect
  split
  · exact .ok _ (.refl s)
  · exact .ok _ (.of_coreOnly (h _))

theorem takeEffect_keepsForm (p : Port) (s : State) : EffectKeepsForm s (takeEffect p s) := by
  unfold takeEffect
  split
  · exact .ok _ (.refl s)
  · exact .ok _ (.of_samePool rfl rfl)

/-! ## Takings -/

theorem afterTaking_keepsForm (p : Port) (t : State) (reply : List Byte) : KeepsForm t (afterTaking p t reply) :=
  .of_samePool (refresh_pending _) (afterTaking_pool p t reply)

theorem takeCommand_keepsForm (p : Port) (req : Request) {effect : State → CoreResult} {s : State}
    (h : EffectKeepsForm s (effect s)) : OnNext (takeCommand p req effect s) (KeepsForm s) := by
  intro u hu
  obtain ⟨_, rfl⟩ | ⟨_, t, reply, he, rfl⟩ := takeCommand_cases hu
  · exact .refl u
  · exact (h t reply he).trans (afterTaking_keepsForm p t reply)

/-- The taking of a command that is judged and, where it passes, answered OK alone. -/
theorem takeOkAlone_keepsForm (p : Port) {req : Request} {checks : State → List (Bool × ResultCode)}
    {effect : State → State} {s : State} (h : KeepsForm s (effect s)) :
    OnNext (takeCommand p req (fun s => judged s (checks s) (okAlone (effect s))) s) (KeepsForm s) :=
  takeCommand_keepsForm p req (.judged (checks s) (.ok _ h))

theorem execSend_keepsForm (p : Port) (g tag flags len dl : Byte) (s : State) :
    OnNext (execSend p g tag flags len dl s) (KeepsForm s) := by
  refine takeCommand_keepsForm p _ fun t reply ht => ?_
  obtain ⟨u, hu, rfl⟩ := execSend_effect ht
  have hjudged := EffectKeepsForm.judged _ (sendEffect_keepsForm p g tag flags len dl s) u reply hu
  exact hjudged.trans (modPfe_keepsForm u p _)

theorem execTickTaking_keepsForm (s : State) : OnNext (execTickTaking s) (KeepsForm s) := by
  obtain ⟨-, -, -, -, -, hpool, hpending⟩ := tickTaken_frame s
  unfold execTickTaking
  split
  · exact onNext_next ((KeepsForm.of_samePool hpending hpool).trans (endTick_keepsForm (tickTaken s)))
  · exact onNext_next (.refl s)

theorem execRecordExpiry_keepsForm (r : RecordIndex) (s : State) :
    OnNext (execRecordExpiry r s) (KeepsForm s) := by
  unfold execRecordExpiry
  split
  · exact onNext_next ((KeepsForm.of_coreOnly (expire_coreOnly s r)).trans (endTick_keepsForm _))
  · exact onNext_next (.refl s)

theorem execPresenceReport_keepsForm (p : Port) (s : State) :
    OnNext (execPresenceReport p s) (KeepsForm s) := by
  unfold execPresenceReport
  split
  · have heffect : KeepsForm s _ :=
      (modPfe_keepsForm s p Pfe.takePresence).trans
        (presenceEffect_keepsForm p (s.pfe p).presence.lostSeen (s.pfe p).presence.level _)
    exact onNext_next ((heffect.trans (setArbiter_keepsForm _ _ _)).trans (refresh_keepsForm _))
  · exact onNext_next (.refl s)

/-! ## Events of the front-ends, and hub reset -/

theorem pfeEvent_keepsForm (p : Port) (act : Summary → Pfe → Pfe) (s : State) : KeepsForm s (pfeEvent p act s) :=
  .of_samePool (pfeEvent_pending p act s) (pfeEvent_pool p act s)

theorem byteEventIf_keepsForm (p : Port) (case : Pfe → Bool) (b : Byte) (s : State) :
    KeepsForm s (byteEventIf p case b s) := by
  obtain ⟨-, h⟩ | ⟨-, h⟩ := byteEventIf_cases p case b s <;> rw [h]
  · exact pfeEvent_keepsForm p _ s
  · exact .refl s

theorem noteUnderway_keepsForm (p : Port) (granted : Bool) (s t : State) :
    KeepsForm t (noteUnderway p granted s t) := by
  unfold noteUnderway
  split
  · exact setArbiter_keepsForm t _ _
  · exact .refl t

theorem execTick_keepsForm (prs : PortSet) (s : State) : OnNext (execTick prs s) (KeepsForm s) :=
  onNext_next (.of_samePool (mapPfes_pending _ _) (mapPfes_pool _ _))

/-- HUB_RESET neither writes a byte of the pool (R29) nor touches the queue of commands (log entry 10). -/
theorem execHubReset_keepsForm (s : State) : OnNext (execHubReset s) (KeepsForm s) :=
  onNext_next (.of_samePool (mapPfes_pending _ _) (mapPfes_pool _ _))

/-! ## The steps -/

/-- SEND writes the pool by copy-in; every other command leaves its bytes, and none takes from or adds to the queue. -/
theorem exec_keepsForm (i : Instr) (s : State) : OnNext (exec i s) (KeepsForm s) := by
  cases i with dsimp only [exec]
  | hubReset => exact execHubReset_keepsForm s
  | tick prs => exact execTick_keepsForm prs s
  | idleSelect p | select p _ | deselect p | byteCompletion p _ => exact onNext_next (pfeEvent_keepsForm p _ s)
  | unknownCommand p _ | commandPost p _ | nop p | status p | clearFault p | setMask p _ =>
    exact onNext_next (byteEventIf_keepsForm p _ _ s)
  | attach p => exact takeOkAlone_keepsForm p (.of_samePool rfl rfl)
  | detach p => exact takeOkAlone_keepsForm p (retire_keepsForm s p .detached)
  | clearNotices p choice => exact takeOkAlone_keepsForm p (.of_coreOnly (clearNoticesEffect_coreOnly p choice s))
  | openGroup p g q sr jr dl => exact takeOkAlone_keepsForm p (.of_coreOnly (openEffect_coreOnly p g q sr jr dl s))
  | close p g => exact takeOkAlone_keepsForm p (.of_coreOnly (enterClosing_coreOnly s _ p _))
  | join p g => exact takeOkAlone_keepsForm p (.of_coreOnly (.modGroup s _ _))
  | leave p g => exact takeOkAlone_keepsForm p (.of_coreOnly (leave_coreOnly p _ s))
  | enrol p g port =>
    exact takeOkAlone_keepsForm p (.of_coreOnly ((CoreOnly.modGroup s _ _).trans (notifyPort_coreOnly _ p _)))
  | expel p g port => exact takeOkAlone_keepsForm p (.of_coreOnly (expel_coreOnly p _ _ s))
  | resize p g q => exact takeOkAlone_keepsForm p (.of_coreOnly (resizeEffect_coreOnly g q s))
  | groupInfo p _ | roster p | poolInfo p => exact takeCommand_keepsForm p _ (.judged _ (.ok _ (.refl s)))
  | send p g tag flags len dl => exact execSend_keepsForm p g tag flags len dl s
  | fetch p => exact takeCommand_keepsForm p _ (.judged _ (fetchEffect_keepsForm p s))
  | read p index generation offset count =>
    exact takeCommand_keepsForm p _ (.judged _ (readEffect_keepsForm p index generation offset count s))
  | ack p index generation code =>
    exact takeCommand_keepsForm p _
      (.judged _ (answerEffect_keepsForm p index generation fun k => ackEffect_coreOnly p code k s))
  | nack p index generation code =>
    exact takeCommand_keepsForm p _
      (.judged _ (answerEffect_keepsForm p index generation fun k => nackEffect_coreOnly p code k s))
  | take p => exact takeCommand_keepsForm p _ (.judged _ (takeEffect_keepsForm p s))
  | tickTaking => exact execTickTaking_keepsForm s
  | recordExpiry r => exact execRecordExpiry_keepsForm r s
  | presenceReport p => exact execPresenceReport_keepsForm p s
  | _ => -- RECALL, whose constructor has the name of a Mathlib command
    exact onNext_next ((byteEventIf_keepsForm _ _ _ s).trans (noteUnderway_keepsForm _ _ _ _))

/-- Settles O60: copy-in writes inside the chain's blocks and keeps the canonical form, and nothing else writes the
pool. -/
theorem everyStepKeepsMemoryForm : Obligations.EveryStepKeepsMemoryForm := by
  intro s hs t ht
  cases hpending : s.pending with
  | nil =>
    rw [step_of_empty hpending] at ht
    cases ht
    exact hs
  | cons c rest =>
    rw [step_of_front hpending] at ht
    exact (exec_keepsForm c (s.setPending rest) t ht).form hs

/-- Settles O1: the queue is `c :: rest`, and what `c` runs on has the queue `rest`. -/
theorem stepRunsFrontCommand : Obligations.StepRunsFrontCommand := by
  intro c rest s
  exact step_of_front (setPending_pending s (c :: rest))

/-- Settles O2: a step on an empty queue is no command's, and a command leaves the queue as it found it. -/
theorem queueIsOnlyTakenFrom : Obligations.QueueIsOnlyTakenFrom :=
  ⟨fun _ hempty => step_of_empty hempty, fun i s t ht => (exec_keepsForm i s t ht).pending⟩

end Sys2Proof.Machine.QueueAndMemory

namespace Sys2Proof.Machine.Directory

open Laws MessagePool FrontEnds Sending Traffic Queues Handles Receiving Expiry SendLists Inactive

/-! ## The transitions of a group (R4, R5, R25) -/

theorem notifyRoster_group (s : State) (m : PortSet) (but : Option Port) (k : GroupNo) :
    (s.notifyRoster m but).group k = s.group k := mapPorts_group s _ k

theorem notifyRoster_reservedTotal (s : State) (m : PortSet) (but : Option Port) :
    (s.notifyRoster m but).reservedTotal = s.reservedTotal := mapPorts_reservedTotal s _

theorem notifyRoster_told (s : State) (m : PortSet) (but : Option Port) (q : Port) :
    (s.notifyRoster m but).port q = told (PortSet.has m q && decide (but ≠ some q)) (s.port q) := by
  rw [notifyRoster_port]
  cases hm : PortSet.has m q
  · rw [Bool.false_and, Bool.false_and, told_false]; rfl
  · by_cases hb : but = some q
    · simp [hb, told]
    · simp [hb, told]

theorem told_told (a b : Bool) (c : CorePort) : told b (told a c) = told (a || b) c := by
  simp [told, Bool.or_assoc]

/-- A group whose FREE transition has been made is as after hub reset, and no other group is touched (R5). -/
theorem freeGroup_group (s : State) (g : GroupNo) (closer : Option Port) (k : GroupNo) :
    (s.freeGroup g closer).group k = if k = g then Group.freed else s.group k := by
  rw [State.freeGroup, modGroup_group, notifyRoster_group, setReserved_group]
  exact if_congr eq_comm rfl rfl

theorem freeGroup_reservedTotal (s : State) (g : GroupNo) (closer : Option Port) :
    (s.freeGroup g closer).reservedTotal = s.reservedTotal - (s.group g).quota := by
  rw [State.freeGroup, modGroup_reservedTotal, notifyRoster_reservedTotal, setReserved_reservedTotal]

theorem freeGroup_port (s : State) (g : GroupNo) (closer : Option Port) (q : Port) :
    (s.freeGroup g closer).port q =
      told (PortSet.has (s.group g).members q && decide (closer ≠ some q)) (s.port q) := by
  rw [State.freeGroup, modGroup_port, notifyRoster_told, setReserved_port]

/-- A group that enters CLOSING, with the check of R5 that follows. -/
theorem enterClosing_eq (s : State) (g : GroupNo) (cause : Port) (closer : Option Port) :
    s.enterClosing g cause closer =
      if (s.group g).inFlight = 0 then
        ((s.modGroup g fun e => { e with state := .closing }).notifyRoster (s.group g).members (some cause)).freeGroup
          g closer
      else (s.modGroup g fun e => { e with state := .closing }).notifyRoster (s.group g).members (some cause) := by
  rw [State.enterClosing, State.freeIfDone]
  refine if_congr ?_ rfl rfl
  rw [notifyRoster_group, modGroup_group_same]
  exact ⟨fun h => h.2, fun h => ⟨rfl, h⟩⟩

theorem enterClosing_group (s : State) (g : GroupNo) (cause : Port) (closer : Option Port) (k : GroupNo) :
    (s.enterClosing g cause closer).group k =
      if k ≠ g then s.group k
      else if (s.group g).inFlight = 0 then Group.freed else { s.group g with state := .closing } := by
  rw [enterClosing_eq]
  by_cases hk : k = g
  · subst hk
    rw [if_neg (not_not_intro rfl)]
    split
    · rw [freeGroup_group, if_pos rfl]
    · rw [notifyRoster_group, modGroup_group_same]
  · rw [if_pos hk]
    split
    · rw [freeGroup_group, if_neg hk, notifyRoster_group, modGroup_group_ne _ _ _ _ (Ne.symm hk)]
    · rw [notifyRoster_group, modGroup_group_ne _ _ _ _ (Ne.symm hk)]

theorem enterClosing_reservedTotal (s : State) (g : GroupNo) (cause : Port) (closer : Option Port) :
    (s.enterClosing g cause closer).reservedTotal =
      if (s.group g).inFlight = 0 then s.reservedTotal - (s.group g).quota else s.reservedTotal := by
  rw [enterClosing_eq]
  split
  · rw [freeGroup_reservedTotal, notifyRoster_reservedTotal, modGroup_reservedTotal, notifyRoster_group,
      modGroup_group_same]
  · rw [notifyRoster_reservedTotal, modGroup_reservedTotal]

/-- The members are told once the group enters CLOSING, but for the port that caused it, and again where it becomes
FREE at once (R4, R5). -/
theorem enterClosing_port (s : State) (g : GroupNo) (cause : Port) (closer : Option Port) (q : Port) :
    (s.enterClosing g cause closer).port q =
      told (PortSet.has (s.group g).members q &&
        (decide (q ≠ cause) || (decide ((s.group g).inFlight = 0) && decide (closer ≠ some q)))) (s.port q) := by
  have hcause : (some cause ≠ some q) ↔ q ≠ cause := by rw [ne_eq, Option.some_inj, eq_comm]
  rw [enterClosing_eq]
  split
  · rename_i h
    rw [freeGroup_port, notifyRoster_told, told_told, notifyRoster_group, modGroup_group_same, modGroup_port,
      decide_eq_true h, Bool.true_and, ← Bool.and_or_distrib_left, decide_eq_decide.2 hcause]
  · rename_i h
    rw [notifyRoster_told, modGroup_port, decide_eq_false h, Bool.false_and, Bool.or_false, decide_eq_decide.2 hcause]

/-- The entry of a group that loses its anchor (R25). -/
def anchorLost (e : Group) : Group :=
  if e.state = .opened then
    if e.inFlight = 0 then Group.freed else { e with anchor := none, state := .closing }
  else { e with anchor := none }

theorem loseAnchor_of_ne {p : Port} {s : State} {g : GroupNo} (h : (s.group g).anchor ≠ some p) :
    State.loseAnchor p s g = s := by rw [State.loseAnchor, if_neg h]

/-- Anchor loss of an OPEN group: it enters CLOSING with no anchor (R25). -/
theorem loseAnchor_of_opened {p : Port} {s : State} {g : GroupNo} (h : (s.group g).anchor = some p)
    (hopen : (s.group g).state = .opened) :
    State.loseAnchor p s g = (s.modGroup g fun e => { e with anchor := none }).enterClosing g p none := by
  rw [State.loseAnchor, if_pos h]
  exact if_pos hopen

theorem loseAnchor_of_not_opened {p : Port} {s : State} {g : GroupNo} (h : (s.group g).anchor = some p)
    (hopen : (s.group g).state ≠ .opened) :
    State.loseAnchor p s g = s.modGroup g fun e => { e with anchor := none } := by
  rw [State.loseAnchor, if_pos h]
  exact if_neg hopen

theorem loseAnchor_group {p : Port} {s : State} {g : GroupNo} (h : (s.group g).anchor = some p) (k : GroupNo) :
    (State.loseAnchor p s g).group k = if k = g then anchorLost (s.group g) else s.group k := by
  by_cases hopen : (s.group g).state = .opened
  · rw [loseAnchor_of_opened h hopen, enterClosing_group, modGroup_group_same]
    by_cases hk : k = g
    · rw [if_neg (not_not_intro hk), if_pos hk, anchorLost, if_pos hopen]
    · rw [if_pos hk, if_neg hk, modGroup_group_ne _ _ _ _ (Ne.symm hk)]
  · rw [loseAnchor_of_not_opened h hopen, modGroup_group, anchorLost, if_neg hopen]
    exact if_congr eq_comm rfl rfl

/-- What the close of a record leaves of the groups, whether a port is being retired or not (R5, R103). -/
theorem closeRecord_group_eq {s : State} {r : RecordIndex} {m : Message} (hm : s.message r = some m)
    (retiring : Option Port) (g : GroupNo) :
    (s.closeRecord retiring r).group g =
      if g ≠ m.group then s.group g
      else if groupFrees s m = true then Group.freed else uncharged m (s.group g) := by
  have hgroup (k : GroupNo) : ((s.closeEntry retiring r m).freeChain m.chain).group k = s.group k := by
    rw [State.freeChain, setFreeList_group, closeEntry_group]
  rw [closeRecord_some hm, modRecord_group, releaseCharge_group, groupFrees_congr hgroup, hgroup]

theorem closeRecord_reservedTotal_eq {s : State} {r : RecordIndex} {m : Message} (hm : s.message r = some m)
    (retiring : Option Port) :
    (s.closeRecord retiring r).reservedTotal =
      if groupFrees s m = true then s.reservedTotal - (s.group m.group).quota else s.reservedTotal := by
  have hgroup (k : GroupNo) : ((s.closeEntry retiring r m).freeChain m.chain).group k = s.group k := by
    rw [State.freeChain, setFreeList_group, closeEntry_group]
  rw [closeRecord_some hm, modRecord_reservedTotal, releaseCharge_reservedTotal, groupFrees_congr hgroup, hgroup,
    State.freeChain, setFreeList_reservedTotal, closeEntry_reservedTotal]

/-- What the close leaves of a port: its send-list entry, then the roster notice of the group's FREE transition. -/
theorem closeRecord_port_eq {s : State} {r : RecordIndex} {m : Message} (hm : s.message r = some m)
    (retiring : Option Port) (q : Port) :
    (s.closeRecord retiring r).port q =
      told (groupFrees s m && PortSet.has (s.group m.group).members q) ((s.closeEntry retiring r m).port q) := by
  have hgroup (k : GroupNo) : ((s.closeEntry retiring r m).freeChain m.chain).group k = s.group k := by
    rw [State.freeChain, setFreeList_group, closeEntry_group]
  rw [closeRecord_some hm, modRecord_port, releaseCharge_port, groupFrees_congr hgroup, hgroup]
  rfl

end Sys2Proof.Machine.Directory

namespace Sys2Proof.Machine.Directory

open Laws MessagePool FrontEnds Sending Traffic Queues Handles Receiving Expiry SendLists Inactive

/-! ## Operations that the directory of groups does not see -/

/-- The port has an empty send list and completion order and a clear roster latch (R126). -/
structure Idle (c : CorePort) : Prop where
  sends     : c.sends = []
  doneOrder : c.doneOrder = []
  roster    : c.roster = false

/-- The message `m'` is charged to its group as `m` is, and has no more time left. -/
structure SameCharge (m m' : Message) : Prop where
  group     : m'.group = m.group
  length    : m'.length = m.length
  chain     : m'.chain = m.chain
  remaining : m'.remaining ≤ m.remaining

theorem SameCharge.refl (m : Message) : SameCharge m m := ⟨rfl, rfl, rfl, le_rfl⟩

theorem SameCharge.trans {a b c : Message} (h : SameCharge a b) (k : SameCharge b c) : SameCharge a c :=
  ⟨k.group.trans h.group, k.length.trans h.length, k.chain.trans h.chain, k.remaining.trans h.remaining⟩

/-- `t` has the groups, the reserved total and the charges of `s`, and every port's state; a port with nothing in its
send list and its roster latch has nothing in `t`. -/
structure SameDirectory (s t : State) : Prop where
  group         : ∀ g, t.group g = s.group g
  reservedTotal : t.reservedTotal = s.reservedTotal
  message       : ∀ r, Option.Rel SameCharge (s.message r) (t.message r)
  tickCount     : s.tickCount ≤ 255 → t.tickCount ≤ 255
  portState     : ∀ q, (t.port q).portState = (s.port q).portState
  idle          : ∀ q, Idle (s.port q) → Idle (t.port q)

theorem optionRel_refl (x : Option Message) : Option.Rel SameCharge x x := by
  cases x with
  | none => exact .none
  | some m => exact .some (.refl m)

theorem optionRel_trans {x y z : Option Message} (h : Option.Rel SameCharge x y) (k : Option.Rel SameCharge y z) :
    Option.Rel SameCharge x z := by
  cases h with
  | none => exact k
  | some h => cases k with
    | some k => exact .some (h.trans k)

theorem SameDirectory.refl (s : State) : SameDirectory s s :=
  ⟨fun _ => rfl, rfl, fun _ => optionRel_refl _, id, fun _ => rfl, fun _ => id⟩

theorem SameDirectory.trans {s t u : State} (h : SameDirectory s t) (k : SameDirectory t u) : SameDirectory s u where
  group g := (k.group g).trans (h.group g)
  reservedTotal := k.reservedTotal.trans h.reservedTotal
  message r := optionRel_trans (h.message r) (k.message r)
  tickCount := k.tickCount ∘ h.tickCount
  portState q := (k.portState q).trans (h.portState q)
  idle q := k.idle q ∘ h.idle q

theorem SameDirectory.foldl {α : Type} {f : State → α → State} (hf : ∀ s a, SameDirectory s (f s a)) (l : List α)
    (s : State) : SameDirectory s (l.foldl f s) :=
  List.foldlRecOn l f (SameDirectory.refl s) fun t ht a _ => ht.trans (hf t a)

/-- An operation outside the ports, the groups, the reserved total and the records. -/
theorem SameDirectory.of_eq {s t : State} (hport : ∀ q, t.port q = s.port q) (hgroup : ∀ g, t.group g = s.group g)
    (hrecord : ∀ r, t.record r = s.record r) (hreserved : t.reservedTotal = s.reservedTotal)
    (htick : s.tickCount ≤ 255 → t.tickCount ≤ 255) : SameDirectory s t where
  group := hgroup
  reservedTotal := hreserved
  message r := by rw [State.message, State.message, hrecord]; exact optionRel_refl _
  tickCount := htick
  portState q := by rw [hport]
  idle q := by rw [hport]; exact id

theorem SameDirectory.of_sameTables {s t : State} (h : SameTables s t) (htick : t.tickCount = s.tickCount) :
    SameDirectory s t := by
  obtain ⟨hport, hgroup, hrecord, hreserved, -⟩ := h
  refine ⟨hgroup, hreserved, fun r => ?_, fun hs => htick ▸ hs, fun q => (SamePort.lists (hport q)).1, fun q hq => ?_⟩
  · rw [State.message, State.message, hrecord]; exact optionRel_refl _
  · obtain ⟨hsends, hdone, hroster⟩ := SamePort.fields (hport q)
    exact ⟨hsends.trans hq.sends, hdone.trans hq.doneOrder, hroster.trans hq.roster⟩

theorem modPfe_sameDirectory (s : State) (p : Port) (f : Pfe → Pfe) : SameDirectory s (s.modPfe p f) :=
  .of_eq (fun _ => rfl) (fun _ => rfl) (fun _ => rfl) rfl id

theorem setArbiter_sameDirectory (s : State) (k : Fin 13) (u : Option Port) : SameDirectory s (s.setArbiter k u) :=
  .of_eq (fun _ => rfl) (fun _ => rfl) (fun _ => rfl) rfl id

theorem setPending_sameDirectory (s : State) (cs : List Instr) : SameDirectory s (s.setPending cs) :=
  .of_eq (fun _ => rfl) (fun _ => rfl) (fun _ => rfl) rfl id

theorem setTickCount_sameDirectory (s : State) {n : Nat} (hn : n ≤ 255) : SameDirectory s (s.setTickCount n) :=
  .of_eq (fun _ => rfl) (fun _ => rfl) (fun _ => rfl) rfl fun _ => hn

theorem mapPfes_sameDirectory (s : State) (f : Port → Pfe → Pfe) : SameDirectory s (s.mapPfes f) :=
  .of_eq (mapPfes_port s f) (mapPfes_group s f) (mapPfes_record s f) (mapPfes_reservedTotal s f) id

theorem refresh_sameDirectory (s : State) : SameDirectory s s.refresh :=
  .of_sameTables (refresh_sameTables s) (refresh_tickCount s)

theorem endTick_sameDirectory (s : State) : SameDirectory s s.endTick :=
  .of_sameTables (endTick_sameTables s) (endTick_frame s).1

theorem afterTaking_sameDirectory (p : Port) (t : State) (reply : List Byte) :
    SameDirectory t (afterTaking p t reply) :=
  ((modPfe_sameDirectory t p _).trans (setArbiter_sameDirectory _ _ _)).trans (refresh_sameDirectory _)

/-- An update of one port that keeps its state and gives it no send-list entry and no roster notice. -/
theorem modPort_sameDirectory (s : State) (p : Port) {f : CorePort → CorePort}
    (hf : ∀ c, (f c).portState = c.portState ∧ (Idle c → Idle (f c))) : SameDirectory s (s.modPort p f) := by
  refine ⟨fun _ => rfl, rfl, fun _ => optionRel_refl _, id, fun q => ?_, fun q hq => ?_⟩ <;> rw [modPort_port] <;> split
  · rename_i h; subst h; exact (hf _).1
  · rfl
  · rename_i h; subst h; exact (hf _).2 hq
  · exact hq

/-- An update of a message that keeps its charge. -/
theorem modMessage_sameDirectory (s : State) (r : RecordIndex) {f : Message → Message} (hf : ∀ m, SameCharge m (f m)) :
    SameDirectory s (s.modMessage r f) := by
  refine ⟨fun _ => rfl, rfl, fun k => ?_, id, fun _ => rfl, fun _ => id⟩
  by_cases h : r = k
  · subst h
    rw [modMessage_message_same]
    cases s.message r with
    | none => exact .none
    | some m => exact .some (hf m)
  · rw [modMessage_message_ne _ _ _ _ h]
    exact optionRel_refl _

theorem lowerRemaining_sameDirectory (s : State) (c : Nat) : SameDirectory s (s.lowerRemaining c) := by
  refine ⟨mapRecords_group s _, mapRecords_reservedTotal s _, fun r => ?_, fun h => ?_, fun q => ?_, fun q => ?_⟩
  · simp only [State.lowerRemaining, State.message, mapRecords_record]
    cases (s.record r).message with
    | none => exact .none
    | some m => exact .some ⟨rfl, rfl, rfl, Nat.sub_le _ _⟩
  · rw [State.lowerRemaining, mapRecords_tickCount]; exact h
  · rw [lowerRemaining_port]
  · rw [lowerRemaining_port]; exact id

theorem setTarget_sameDirectory (s : State) (r : RecordIndex) (p : Port) (o : TargetOutcome) (code : Byte) :
    SameDirectory s (s.setTarget r p o code) := modMessage_sameDirectory s r fun _ => ⟨rfl, rfl, rfl, le_rfl⟩

theorem dropDelivery_sameDirectory (s : State) (r : RecordIndex) (p : Port) : SameDirectory s (s.dropDelivery r p) :=
  modPort_sameDirectory s p fun _ => ⟨rfl, fun h => ⟨h.sends, h.doneOrder, h.roster⟩⟩

theorem dropHeld_sameDirectory (s : State) (r : RecordIndex) (p : Port) : SameDirectory s (s.dropHeld r p) :=
  modPort_sameDirectory s p fun _ => ⟨rfl, fun h => ⟨h.sends, h.doneOrder, h.roster⟩⟩

theorem dropHead_sameDirectory (s : State) (p : Port) : SameDirectory s (s.dropHead p) :=
  modPort_sameDirectory s p fun _ => ⟨rfl, fun h => ⟨h.sends, h.doneOrder, h.roster⟩⟩

theorem settle_sameDirectory (s : State) (r : RecordIndex) (p : Port) (o : TargetOutcome) (code : Byte) :
    SameDirectory s (s.settle r p o code) := by
  rcases settle_cases s r p o code with h | h | h <;> rw [h]
  · exact .refl s
  · exact (dropDelivery_sameDirectory s r p).trans (setTarget_sameDirectory _ r p o code)
  · exact (dropHeld_sameDirectory s r p).trans (setTarget_sameDirectory _ r p o code)

theorem fetchConfirmed_sameDirectory (p : Port) (h : Handle) (s : State) : SameDirectory s (fetchConfirmed p h s) := by
  refine ((dropHead_sameDirectory s p).trans (modPort_sameDirectory _ p ?_)).trans
    (setTarget_sameDirectory _ h.index p .held 0)
  exact fun _ => ⟨rfl, fun hc => ⟨hc.sends, hc.doneOrder, hc.roster⟩⟩

theorem answer_sameDirectory (p : Port) (h : Handle) (o : TargetOutcome) (code : Byte) (s : State) :
    SameDirectory s (answer p h o code s) := by
  refine (modPort_sameDirectory s p ?_).trans (setTarget_sameDirectory _ h.index p o code)
  exact fun _ => ⟨rfl, fun hc => ⟨hc.sends, hc.doneOrder, hc.roster⟩⟩

theorem stopMessage_sameDirectory (s : State) (r : RecordIndex) : SameDirectory s (s.stopMessage r) := by
  have hstopped : SameDirectory s (s.modMessage r fun m => { m with stopped := true }) :=
    modMessage_sameDirectory s r fun _ => ⟨rfl, rfl, rfl, le_rfl⟩
  exact hstopped.trans (.foldl (fun t q => settle_sameDirectory t r q _ _) allPorts _)

theorem missIfQueued_sameDirectory (s : State) (r : RecordIndex) (q : Port) : SameDirectory s (s.missIfQueued r q) := by
  unfold State.missIfQueued
  split
  · exact modPort_sameDirectory s q fun _ => ⟨rfl, fun hc => ⟨hc.sends, hc.doneOrder, hc.roster⟩⟩
  · exact .refl s

theorem expireTargets_sameDirectory (s : State) (r : RecordIndex) : SameDirectory s (s.expireTargets r) :=
  .foldl (fun t q => (missIfQueued_sameDirectory t r q).trans (settle_sameDirectory _ r q _ _)) allPorts s

theorem clearNoticesEffect_sameDirectory (p : Port) (choice : Byte) (s : State) :
    SameDirectory s (clearNoticesEffect p choice s) := by
  unfold clearNoticesEffect
  split
  · exact .refl s
  · exact modPort_sameDirectory s p fun _ => ⟨rfl, fun hc => ⟨hc.sends, hc.doneOrder, by simp [hc.roster]⟩⟩

theorem dropDone_sameDirectory (s : State) (p : Port) (tag : Byte) :
    SameDirectory s (s.modPort p fun c => c.dropDone tag) :=
  modPort_sameDirectory s p fun _ =>
    ⟨rfl, fun hc => ⟨by simp [CorePort.dropDone, hc.sends], by simp [CorePort.dropDone, hc.doneOrder], hc.roster⟩⟩

theorem retireSends_sameDirectory (s : State) (p : Port) : SameDirectory s (s.retireSends p) :=
  modPort_sameDirectory s p fun _ => ⟨rfl, fun _ => ⟨rfl, rfl, rfl⟩⟩

theorem closeEntry_sameDirectory (s : State) (retiring : Option Port) (r : RecordIndex) (m : Message) :
    SameDirectory s (s.closeEntry retiring r m) := by
  unfold State.closeEntry
  split
  · exact .refl s
  · split
    · exact modPort_sameDirectory s _ fun _ =>
        ⟨rfl, fun hc => ⟨by simp [CorePort.complete, hc.sends], by simp [CorePort.complete, hc.sends, hc.doneOrder],
          hc.roster⟩⟩
    · exact modPort_sameDirectory s _ fun _ =>
        ⟨rfl, fun hc => ⟨by simp [CorePort.dropEntry, hc.sends], hc.doneOrder, hc.roster⟩⟩

theorem pfeEvent_sameDirectory (p : Port) (act : Summary → Pfe → Pfe) (s : State) :
    SameDirectory s (pfeEvent p act s) := modPfe_sameDirectory s p _

theorem byteEventIf_sameDirectory (p : Port) (case : Pfe → Bool) (b : Byte) (s : State) :
    SameDirectory s (byteEventIf p case b s) := by
  obtain ⟨_, h⟩ | ⟨_, h⟩ := byteEventIf_cases p case b s <;> rw [h]
  · exact pfeEvent_sameDirectory p _ s
  · exact .refl s

theorem noteUnderway_sameDirectory (p : Port) (granted : Bool) (s t : State) :
    SameDirectory t (noteUnderway p granted s t) := by
  unfold noteUnderway
  split
  · exact setArbiter_sameDirectory t _ _
  · exact .refl t

/-! ## The turns of the directory -/

/-- The elementary changes of the groups, the charges and the port states, each with the checks that stand before it.
`o` is a port whose own place among the stations is not kept by the single turns: one that attaches or is retired. -/
inductive Turn (o : Option Port) : State → State → Prop
  | same {s t : State} (h : SameDirectory s t) : Turn o s t
  | trans {s t u : State} (h : Turn o s t) (k : Turn o t u) : Turn o s u
  | close {s : State} {r : RecordIndex} {m : Message} (hm : s.message r = some m) (retiring : Option Port) :
      Turn o s (s.closeRecord retiring r)
  | closing {s : State} {g : GroupNo} (hg : g ≠ 0) (hopen : (s.group g).state = .opened) (cause : Port)
      (closer : Option Port) : Turn o s (s.enterClosing g cause closer)
  | loseAnchor (p : Port) (s : State) (g : GroupNo) : Turn o s (State.loseAnchor p s g)
  | addMember {s : State} {g : GroupNo} {p : Port} (hstate : g = 0 ∨ (s.group g).state ≠ .free)
      (hplace : o = some p ∨ (g ≠ 0 ∧ (s.port p).portState = .active)) : Turn o s (s.addMember g p)
  | removeMember (s : State) {g : GroupNo} (hg : g ≠ 0) (p : Port) : Turn o s (s.removeMember g p)
  | removeMembers (s : State) {p : Port} (ho : o = some p) : Turn o s (s.retireMemberships p)
  | opened {s : State} {p : Port} {g q sr jr dl : Byte} (hpass : firstFail (openChecks p g q sr jr dl s) = none) :
      Turn o s (openEffect p g q sr jr dl s)
  | resized {s : State} {p : Port} {g q : Byte} (hpass : firstFail (resizeChecks p g q s) = none) :
      Turn o s (resizeEffect g q s)
  | committed {s : State} {p : Port} {g tag flags len dl : Byte} {r : RecordIndex}
      (hpass : firstFail (sendChecks p g tag flags len dl s) = none) (hfree : s.message r = none)
      (hblocks : blocksFor len.toNat ≤ s.freeList.length) : Turn o s (committed p g tag flags len dl r s)
  | setPortState (s : State) {p : Port} (ho : o = some p) (st : PortState) : Turn o s (s.setPortState p st)
  | notify {s : State} (p : Port) {q : Port} (hq : o = some q ∨ (s.port q).portState = .active) : Turn o s (s.notifyPort p q)

theorem Turn.refl (o : Option Port) (s : State) : Turn o s s := .same (.refl s)

theorem Turn.foldl {o : Option Port} {α : Type} {f : State → α → State} (hf : ∀ s a, Turn o s (f s a)) (l : List α)
    (s : State) : Turn o s (l.foldl f s) :=
  List.foldlRecOn l f (Turn.refl o s) fun t ht a _ => ht.trans (hf t a)

theorem closeIfSettled_turn (o : Option Port) (s : State) (retiring : Option Port) (r : RecordIndex) :
    Turn o s (s.closeIfSettled retiring r) := by
  obtain h | ⟨m, hm, -, h⟩ := closeIfSettled_cases s retiring r <;> rw [h]
  · exact .refl o s
  · exact .close hm retiring

theorem withdraw_turn (o : Option Port) (s : State) (retiring : Option Port) (r : RecordIndex) (p : Port) :
    Turn o s (s.withdraw retiring r p) := by
  unfold State.withdraw
  split
  · exact (Turn.same (settle_sameDirectory s r p _ _)).trans (closeIfSettled_turn o _ retiring r)
  · exact .refl o s

theorem withdrawAll_turn (o : Option Port) (s : State) (retiring : Option Port) (p : Port) (rs : List RecordIndex) :
    Turn o s (s.withdrawAll retiring p rs) := .foldl (fun t r => withdraw_turn o t retiring r p) rs s

theorem endMessage_turn (o : Option Port) (p : Port) (s : State) (r : RecordIndex) :
    Turn o s (State.endMessage p s r) := by
  unfold State.endMessage
  split
  · exact .foldl (fun t q => withdraw_turn o t (some p) r q) allPorts s
  · exact .refl o s

/-- The steps of a retirement in their order (R133). -/
theorem retire_turn (s : State) (p : Port) (final : PortState) : Turn (some p) s (s.retire p final) := by
  have htargets : Turn (some p) s (s.retireTargets p) :=
    (withdrawAll_turn _ s (some p) p _).trans (withdrawAll_turn _ _ (some p) p _)
  have hgroups (t : State) : Turn (some p) t ((t.retireMemberships p).retireAnchorships p) :=
    (Turn.removeMembers t rfl).trans (.foldl (fun u g => .loseAnchor p u g) allGroups _)
  have hmessages (t : State) : Turn (some p) t (t.retireMessages p) := .foldl (endMessage_turn _ p) allRecords t
  exact (((htargets.trans (hgroups _)).trans (hmessages _)).trans (.same (retireSends_sameDirectory _ p))).trans
    (.setPortState _ rfl final)

end Sys2Proof.Machine.Directory

namespace Sys2Proof.Machine.Directory

open Laws MessagePool FrontEnds Sending Traffic Queues Handles Receiving Expiry SendLists Inactive

/-! ## Charges and totals (R2, R3) -/

/-- A sum in which one term alone changes. -/
theorem sum_change {n : Nat} {f f' : Fin n → Nat} (i : Fin n) (h : ∀ k, k ≠ i → f' k = f k) :
    ∑ k, f' k + f i = ∑ k, f k + f' i := by
  have hrest : ∑ k ∈ Finset.univ.erase i, f' k = ∑ k ∈ Finset.univ.erase i, f k :=
    Finset.sum_congr rfl fun k hk => h k (Finset.ne_of_mem_erase hk)
  rw [← Finset.add_sum_erase _ f (Finset.mem_univ i), ← Finset.add_sum_erase _ f' (Finset.mem_univ i), hrest]
  omega

/-- The blocks that record `r` charges to group `g`. -/
def blocksAt (s : State) (g : GroupNo) (r : RecordIndex) : Nat := if s.isOfGroup g r then (s.chainOf r).length else 0

/-- The messages that record `r` has in flight in group `g`: one or none. -/
def flightsAt (s : State) (g : GroupNo) (r : RecordIndex) : Nat := if s.isOfGroup g r then 1 else 0

theorem blocksOf_eq_sum (s : State) (g : GroupNo) : s.blocksOf g = ∑ r, blocksAt s g r :=
  (Fin.sum_univ_def _).symm

theorem flightsOf_eq_sum (s : State) (g : GroupNo) : s.flightsOf g = ∑ r, flightsAt s g r := by
  have hnodup : (allRecords.filter (s.isOfGroup g)).Nodup := (List.nodup_finRange 24).filter _
  rw [State.flightsOf, ← List.toFinset_card_of_nodup hnodup, List.toFinset_filter, List.toFinset_finRange,
    Finset.card_filter]
  rfl

theorem blocksAt_of_some {s : State} {r : RecordIndex} {m : Message} (h : s.message r = some m) (g : GroupNo) :
    blocksAt s g r = if m.group = g then m.chain.length else 0 := by
  simp [blocksAt, State.isOfGroup, State.chainOf, h]

theorem flightsAt_of_some {s : State} {r : RecordIndex} {m : Message} (h : s.message r = some m) (g : GroupNo) :
    flightsAt s g r = if m.group = g then 1 else 0 := by
  simp [flightsAt, State.isOfGroup, h]

theorem blocksAt_of_none {s : State} {r : RecordIndex} (h : s.message r = none) (g : GroupNo) : blocksAt s g r = 0 := by
  simp [blocksAt, State.isOfGroup, h]

theorem flightsAt_of_none {s : State} {r : RecordIndex} (h : s.message r = none) (g : GroupNo) :
    flightsAt s g r = 0 := by
  simp [flightsAt, State.isOfGroup, h]

theorem charges_congr {s t : State} {r : RecordIndex} (h : Option.Rel SameCharge (s.message r) (t.message r))
    (g : GroupNo) : blocksAt t g r = blocksAt s g r ∧ flightsAt t g r = flightsAt s g r := by
  cases hs : s.message r with
  | none =>
    cases ht : t.message r with
    | none => simp [blocksAt_of_none, flightsAt_of_none, hs, ht]
    | some m => rw [hs, ht] at h; cases h
  | some m =>
    cases ht : t.message r with
    | none => rw [hs, ht] at h; cases h
    | some m' =>
      rw [hs, ht] at h
      cases h with
      | some h => simp [blocksAt_of_some, flightsAt_of_some, hs, ht, h.group, h.chain]

/-- A group with nothing in flight holds no block. -/
theorem blocksOf_eq_zero {s : State} {g : GroupNo} (h : s.flightsOf g = 0) : s.blocksOf g = 0 := by
  rw [flightsOf_eq_sum, Finset.sum_eq_zero_iff] at h
  rw [blocksOf_eq_sum]
  refine Finset.sum_eq_zero fun r hr => ?_
  have hflight := h r hr
  unfold flightsAt at hflight
  unfold blocksAt
  split
  · rename_i hgroup
    rw [if_pos hgroup] at hflight
    cases hflight
  · rfl

theorem charges_of_records {s t : State} (h : ∀ r, Option.Rel SameCharge (s.message r) (t.message r)) (g : GroupNo) :
    t.blocksOf g = s.blocksOf g ∧ t.flightsOf g = s.flightsOf g := by
  simp only [blocksOf_eq_sum, flightsOf_eq_sum]
  exact ⟨Finset.sum_congr rfl fun r _ => (charges_congr (h r) g).1,
    Finset.sum_congr rfl fun r _ => (charges_congr (h r) g).2⟩

/-- The charges when one record alone changes. -/
theorem charges_change {s t : State} {r : RecordIndex} (h : ∀ k, k ≠ r → t.message k = s.message k) (g : GroupNo) :
    t.blocksOf g + blocksAt s g r = s.blocksOf g + blocksAt t g r ∧
      t.flightsOf g + flightsAt s g r = s.flightsOf g + flightsAt t g r := by
  have hsame (k : RecordIndex) (hk : k ≠ r) : blocksAt t g k = blocksAt s g k ∧ flightsAt t g k = flightsAt s g k :=
    charges_congr (by rw [h k hk]; exact optionRel_refl _) g
  simp only [blocksOf_eq_sum, flightsOf_eq_sum]
  exact ⟨sum_change r fun k hk => (hsame k hk).1, sum_change r fun k hk => (hsame k hk).2⟩

/-- The counts of group `g` follow the records and stay within its quota (R2, R3). -/
structure Balanced (s : State) (g : GroupNo) : Prop where
  used     : (s.group g).used = s.blocksOf g
  inFlight : (s.group g).inFlight = s.flightsOf g
  within   : (s.group g).used ≤ (s.group g).quota
  free     : (s.group g).state = .free → (s.group g).quota = 0

theorem quotaLaw_iff {s : State} :
    QuotaLaw s ↔ s.reservedTotal = ∑ g, (s.group g).quota ∧ s.reservedTotal ≤ 128 ∧ ∀ g, Balanced s g := by
  rw [Fin.sum_univ_def]
  refine and_congr_right fun _ => and_congr_right fun _ => forall_congr' fun g => ?_
  exact ⟨fun ⟨h1, h2, h3, h4⟩ => ⟨h1, h2, h3, h4⟩, fun h => ⟨h.used, h.inFlight, h.within, h.free⟩⟩

theorem quota_le_reservedTotal {s : State} (hs : QuotaLaw s) (g : GroupNo) : (s.group g).quota ≤ s.reservedTotal := by
  rw [(quotaLaw_iff.1 hs).1]
  exact Finset.single_le_sum (f := fun k => (s.group k).quota) (fun _ _ => Nat.zero_le _) (Finset.mem_univ g)

/-- An operation that keeps every group's quota and state, and its counts at its records. -/
theorem quotaLaw_of_entries {s t : State} (hs : QuotaLaw s) (hreserved : t.reservedTotal = s.reservedTotal)
    (hmessage : ∀ r, Option.Rel SameCharge (s.message r) (t.message r))
    (hgroup : ∀ g, (t.group g).quota = (s.group g).quota ∧ (t.group g).used = (s.group g).used ∧
      (t.group g).inFlight = (s.group g).inFlight ∧ ((t.group g).state = .free → (s.group g).state = .free)) :
    QuotaLaw t := by
  obtain ⟨htotal, hlimit, hbalanced⟩ := quotaLaw_iff.1 hs
  refine quotaLaw_iff.2 ⟨?_, hreserved ▸ hlimit, fun g => ?_⟩
  · rw [hreserved, htotal]
    exact Finset.sum_congr rfl fun g _ => (hgroup g).1.symm
  · obtain ⟨hquota, hused, hflight, hstate⟩ := hgroup g
    obtain ⟨hblocks, hflights⟩ := charges_of_records hmessage g
    obtain ⟨hu, hi, hw, hf⟩ := hbalanced g
    exact ⟨by rw [hused, hblocks, hu], by rw [hflight, hflights, hi], by rw [hused, hquota]; exact hw,
      fun ht => by rw [hquota, hf (hstate ht)]⟩

/-- An operation on one group: the reserved total changes with its quota, and its counts follow its records. -/
theorem quotaLaw_of_group {s t : State} (hs : QuotaLaw s) {g : GroupNo} (hother : ∀ k, k ≠ g → t.group k = s.group k)
    (hcharges : ∀ k, k ≠ g → t.blocksOf k = s.blocksOf k ∧ t.flightsOf k = s.flightsOf k)
    (htotal : t.reservedTotal + (s.group g).quota = s.reservedTotal + (t.group g).quota)
    (hlimit : t.reservedTotal ≤ 128) (hg : Balanced t g) : QuotaLaw t := by
  obtain ⟨hsum, -, hbalanced⟩ := quotaLaw_iff.1 hs
  refine quotaLaw_iff.2 ⟨?_, hlimit, fun k => ?_⟩
  · have hchange : ∑ k, (t.group k).quota + (s.group g).quota = ∑ k, (s.group k).quota + (t.group g).quota :=
      sum_change (f := fun k => (s.group k).quota) (f' := fun k => (t.group k).quota) g fun k hk => by
        rw [hother k hk]
    omega
  · by_cases hk : k = g
    · exact hk ▸ hg
    · obtain ⟨hu, hi, hw, hf⟩ := hbalanced k
      obtain ⟨hblocks, hflights⟩ := hcharges k hk
      rw [← hother k hk] at hu hi hw hf
      exact ⟨hu.trans hblocks.symm, hi.trans hflights.symm, hw, hf⟩

/-- A group with nothing in flight becomes FREE, and its quota is released (R5). -/
theorem quotaLaw_of_freed {s t : State} (hs : QuotaLaw s) {g : GroupNo} (hother : ∀ k, k ≠ g → t.group k = s.group k)
    (hcharges : ∀ k, k ≠ g → t.blocksOf k = s.blocksOf k ∧ t.flightsOf k = s.flightsOf k)
    (hreserved : t.reservedTotal = s.reservedTotal - (s.group g).quota) (hgroup : t.group g = Group.freed)
    (hflights : t.flightsOf g = 0) : QuotaLaw t := by
  have hquota := quota_le_reservedTotal hs g
  have hlimit := (quotaLaw_iff.1 hs).2.1
  refine quotaLaw_of_group hs hother hcharges ?_ (by omega) ⟨?_, ?_, ?_, fun _ => ?_⟩ <;> rw [hgroup]
  · rw [hreserved, Nat.sub_add_cancel hquota]; rfl
  · exact (blocksOf_eq_zero hflights).symm
  · exact hflights.symm
  · exact le_rfl
  · rfl

theorem closeRecord_message {s : State} {r : RecordIndex} {m : Message} (hm : s.message r = some m)
    (retiring : Option Port) (k : RecordIndex) :
    (s.closeRecord retiring r).message k = if r = k then none else s.message k := by
  rw [State.message, closeRecord_record hm]
  split <;> rfl

/-- The close of a record takes its charge from its group, which becomes FREE where it is CLOSING with nothing else in
flight (R103). -/
theorem closeRecord_quotaLaw {s : State} (hs : QuotaLaw s) {r : RecordIndex} {m : Message}
    (hm : s.message r = some m) (retiring : Option Port) : QuotaLaw (s.closeRecord retiring r) := by
  obtain ⟨-, hlimit, hbalanced⟩ := quotaLaw_iff.1 hs
  obtain ⟨hused, hflight, hwithin, hfree⟩ := hbalanced m.group
  have hchange := charges_change (s := s) (t := s.closeRecord retiring r) (r := r) fun k hk => by
    rw [closeRecord_message hm, if_neg hk.symm]
  have hclosed : (s.closeRecord retiring r).message r = none := by rw [closeRecord_message hm, if_pos rfl]
  simp only [blocksAt_of_none hclosed, flightsAt_of_none hclosed, blocksAt_of_some hm, flightsAt_of_some hm,
    Nat.add_zero] at hchange
  have hother (k : GroupNo) (hk : k ≠ m.group) : (s.closeRecord retiring r).group k = s.group k := by
    rw [closeRecord_group_eq hm, if_pos hk]
  have hcharges (k : GroupNo) (hk : k ≠ m.group) :
      (s.closeRecord retiring r).blocksOf k = s.blocksOf k ∧
        (s.closeRecord retiring r).flightsOf k = s.flightsOf k := by
    have := hchange k
    rwa [if_neg hk.symm, if_neg hk.symm, Nat.add_zero, Nat.add_zero] at this
  obtain ⟨hblocks, hflights⟩ := hchange m.group
  rw [if_pos rfl] at hblocks hflights
  have hgroup := closeRecord_group_eq hm retiring m.group
  rw [if_neg (not_not_intro rfl)] at hgroup
  have hreserved := closeRecord_reservedTotal_eq hm retiring
  by_cases hfrees : groupFrees s m = true
  · rw [if_pos hfrees] at hgroup hreserved
    obtain ⟨-, hlast⟩ := groupFrees_iff.1 hfrees
    exact quotaLaw_of_freed hs hother hcharges hreserved hgroup (by omega)
  · rw [if_neg hfrees] at hgroup hreserved
    refine quotaLaw_of_group hs hother hcharges ?_ (hreserved ▸ hlimit) ⟨?_, ?_, ?_, ?_⟩ <;> rw [hgroup]
    · rw [hreserved]; rfl
    · simp only [uncharged]; omega
    · simp only [uncharged]; omega
    · simp only [uncharged]; omega
    · exact hfree

theorem enterClosing_message (s : State) (g : GroupNo) (cause : Port) (closer : Option Port) (r : RecordIndex) :
    (s.enterClosing g cause closer).message r = s.message r := (enterClosing_sameRecords s g cause closer).message r

/-- A group that enters CLOSING keeps its counts, or with nothing in flight is FREE at once (R4, R5). -/
theorem enterClosing_quotaLaw {s : State} (hs : QuotaLaw s) (g : GroupNo) (cause : Port) (closer : Option Port) :
    QuotaLaw (s.enterClosing g cause closer) := by
  have hmessage (r : RecordIndex) :
      Option.Rel SameCharge (s.message r) ((s.enterClosing g cause closer).message r) := by
    rw [enterClosing_message]; exact optionRel_refl _
  have hcharges := charges_of_records hmessage
  have hreserved := enterClosing_reservedTotal s g cause closer
  by_cases hlast : (s.group g).inFlight = 0
  · rw [if_pos hlast] at hreserved
    refine quotaLaw_of_freed hs (g := g) (fun k hk => ?_) (fun k _ => hcharges k) hreserved ?_ ?_
    · rw [enterClosing_group, if_pos hk]
    · rw [enterClosing_group, if_neg (not_not_intro rfl), if_pos hlast]
    · rw [(hcharges g).2, ← ((quotaLaw_iff.1 hs).2.2 g).inFlight, hlast]
  · rw [if_neg hlast] at hreserved
    refine quotaLaw_of_entries hs hreserved hmessage fun k => ?_
    rw [enterClosing_group, if_neg hlast]
    split
    · exact ⟨rfl, rfl, rfl, id⟩
    · rename_i hk
      rw [not_not.1 hk]
      exact ⟨rfl, rfl, rfl, fun h => by cases h⟩

/-- An update of one group that keeps its quota and its counts, and does not make it FREE. -/
theorem modGroup_quotaLaw {s : State} (hs : QuotaLaw s) (g : GroupNo) {f : Group → Group}
    (hf : ∀ e, (f e).quota = e.quota ∧ (f e).used = e.used ∧ (f e).inFlight = e.inFlight ∧ (f e).state = e.state) :
    QuotaLaw (s.modGroup g f) := by
  refine quotaLaw_of_entries hs rfl (fun _ => optionRel_refl _) fun k => ?_
  rw [modGroup_group]
  split
  · rename_i hk
    subst hk
    obtain ⟨h1, h2, h3, h4⟩ := hf (s.group g)
    exact ⟨h1, h2, h3, fun h => h4 ▸ h⟩
  · exact ⟨rfl, rfl, rfl, id⟩

theorem loseAnchor_quotaLaw (p : Port) {s : State} (hs : QuotaLaw s) (g : GroupNo) :
    QuotaLaw (State.loseAnchor p s g) := by
  have hlost : QuotaLaw (s.modGroup g fun e => { e with anchor := none }) :=
    modGroup_quotaLaw hs g fun _ => ⟨rfl, rfl, rfl, rfl⟩
  by_cases h : (s.group g).anchor = some p
  · by_cases hopen : (s.group g).state = .opened
    · rw [loseAnchor_of_opened h hopen]
      exact enterClosing_quotaLaw hlost g p none
    · rw [loseAnchor_of_not_opened h hopen]
      exact hlost
  · rw [loseAnchor_of_ne h]
    exact hs

/-- OPEN gives a FREE group, which has no quota, a quota within the headroom (R11, R12). -/
theorem openEffect_quotaLaw {s : State} (hs : QuotaLaw s) {p : Port} {g q sr jr dl : Byte}
    (hpass : firstFail (openChecks p g q sr jr dl s) = none) : QuotaLaw (openEffect p g q sr jr dl s) := by
  obtain ⟨-, -, hbalanced⟩ := quotaLaw_iff.1 hs
  obtain ⟨hused, hflight, hwithin, hfree⟩ := hbalanced (groupNo g)
  have hstate : (s.group (groupNo g)).state = .free := by
    simpa [State.groupIs] using check_passed hpass (b := !s.groupIs g .free) (code := .groupBusy) (by simp [openChecks])
  have hroom : s.reservedTotal + q.toNat ≤ 128 := by
    simpa [Config.reservedLimit] using check_passed hpass (code := .reserveShort)
      (b := decide (Config.reservedLimit < s.reservedTotal + q.toNat)) (by simp [openChecks])
  have hquota := hfree hstate
  refine quotaLaw_of_group hs (g := groupNo g) (fun k hk => ?_) (fun _ _ => ⟨rfl, rfl⟩) ?_ hroom ⟨?_, ?_, ?_, ?_⟩ <;>
    unfold openEffect
  · rw [modGroup_group_ne _ _ _ _ hk.symm]; rfl
  · rw [modGroup_group_same, hquota]; rfl
  · rw [modGroup_group_same]; exact hused
  · rw [modGroup_group_same]; exact hflight
  · rw [modGroup_group_same]
    simp only [setReserved_group]
    omega
  · rw [modGroup_group_same]
    intro h
    cases h

/-- RESIZE sets a quota that is not below the used count, within the headroom (R23). -/
theorem resizeEffect_quotaLaw {s : State} (hs : QuotaLaw s) {p : Port} {g q : Byte}
    (hpass : firstFail (resizeChecks p g q s) = none) : QuotaLaw (resizeEffect g q s) := by
  obtain ⟨-, hlimit, hbalanced⟩ := quotaLaw_iff.1 hs
  obtain ⟨hused, hflight, hwithin, hfree⟩ := hbalanced (groupNo g)
  have hstate : (s.group (groupNo g)).state ≠ .free := by
    simpa [State.groupIs] using check_passed hpass (b := s.groupIs g .free) (code := .groupFree) (by simp [resizeChecks])
  have hwithin' : (s.group (groupNo g)).used ≤ q.toNat := by
    simpa using check_passed hpass (b := decide (q.toNat < (s.group (groupNo g)).used)) (code := .quotaBelowUse)
      (by simp [resizeChecks])
  have hroom := check_passed hpass (code := .reserveShort)
    (b := decide ((s.group (groupNo g)).quota < q.toNat) &&
      decide (Config.reservedLimit < s.reservedTotal + (q.toNat - (s.group (groupNo g)).quota)))
    (by simp [resizeChecks])
  simp only [Config.reservedLimit, Bool.and_eq_false_iff, decide_eq_false_iff_not] at hroom
  have hquota := quota_le_reservedTotal hs (groupNo g)
  refine quotaLaw_of_group hs (g := groupNo g) (fun k hk => ?_) (fun _ _ => ⟨rfl, rfl⟩) ?_ ?_ ⟨?_, ?_, ?_, ?_⟩ <;>
    unfold resizeEffect
  · rw [modGroup_group_ne _ _ _ _ hk.symm]; rfl
  · rw [modGroup_group_same, modGroup_reservedTotal, setReserved_reservedTotal]
    exact Nat.sub_add_cancel (by omega)
  · rw [modGroup_reservedTotal, setReserved_reservedTotal]
    omega
  · rw [modGroup_group_same]; exact hused
  · rw [modGroup_group_same]; exact hflight
  · rw [modGroup_group_same]; exact hwithin'
  · rw [modGroup_group_same]
    exact fun h => absurd h hstate

/-- A commit charges its group with the chain it takes from the free list (R32, R49). -/
theorem committed_quotaLaw {s : State} (hs : QuotaLaw s) {p : Port} {g tag flags len dl : Byte} {r : RecordIndex}
    (hpass : firstFail (sendChecks p g tag flags len dl s) = none) (hfree : s.message r = none)
    (hblocks : blocksFor len.toNat ≤ s.freeList.length) : QuotaLaw (committed p g tag flags len dl r s) := by
  obtain ⟨-, hlimit, hbalanced⟩ := quotaLaw_iff.1 hs
  obtain ⟨hused, hflight, hwithin, -⟩ := hbalanced (groupNo g)
  have hroom : blocksFor len.toNat ≤ (s.group (groupNo g)).quota - (s.group (groupNo g)).used := by
    simpa using check_passed hpass (code := .quotaShort)
      (b := decide ((s.group (groupNo g)).quota - (s.group (groupNo g)).used < blocksFor len.toNat))
      (by simp [sendChecks])
  have hmessage := committed_message p g tag flags len dl r s
  have hchain : (s.messageSent p g tag flags len dl).chain.length = blocksFor len.toNat := by
    rw [messageSent_eq]
    exact List.length_take_of_le hblocks
  have hchange := charges_change (s := s) (t := committed p g tag flags len dl r s) (r := r) fun k hk => by
    rw [State.message, committed_record, if_neg hk.symm]; rfl
  simp only [blocksAt_of_none hfree, flightsAt_of_none hfree, Nat.add_zero,
    blocksAt_of_some hmessage, flightsAt_of_some hmessage, hchain] at hchange
  have hreserved := committed_reservedTotal p g tag flags len dl r s
  have hgroup := committed_group p g tag flags len dl r s (groupNo g)
  rw [if_pos rfl] at hgroup
  obtain ⟨hblocks', hflights'⟩ := hchange (groupNo g)
  refine quotaLaw_of_group hs (g := groupNo g) (fun k hk => ?_) (fun k hk => ?_) ?_ (hreserved ▸ hlimit)
    ⟨?_, ?_, ?_, fun h => ?_⟩
  · rw [committed_group, if_neg hk.symm]
  · have hsame := hchange k
    rwa [if_neg hk.symm, if_neg hk.symm, Nat.add_zero, Nat.add_zero] at hsame
  · rw [hreserved, hgroup]
  · rw [hgroup, hblocks', hused, if_pos rfl]
  · rw [hgroup, hflights', hflight, if_pos rfl]
  · rw [hgroup]
    simp only
    omega
  · rw [hgroup] at h
    exact absurd h (group_of_sendChecks hpass)

/-- Every turn keeps the totals and the counts. -/
theorem Turn.quotaLaw {o : Option Port} {s t : State} (h : Turn o s t) (hs : QuotaLaw s) : QuotaLaw t := by
  induction h with
  | same h =>
    exact quotaLaw_of_entries hs h.reservedTotal h.message fun g => by rw [h.group]; exact ⟨rfl, rfl, rfl, id⟩
  | trans _ _ ih ih' => exact ih' (ih hs)
  | close hm retiring => exact closeRecord_quotaLaw hs hm retiring
  | closing _ _ cause closer => exact enterClosing_quotaLaw hs _ cause closer
  | loseAnchor p _ g => exact loseAnchor_quotaLaw p hs g
  | addMember _ _ => exact modGroup_quotaLaw hs _ fun _ => ⟨rfl, rfl, rfl, rfl⟩
  | removeMember _ _ _ => exact modGroup_quotaLaw hs _ fun _ => ⟨rfl, rfl, rfl, rfl⟩
  | removeMembers s _ =>
    refine quotaLaw_of_entries hs (mapGroups_reservedTotal s _) (fun r => ?_) fun g => ?_
    · rw [State.retireMemberships, (mapGroups_sameRecords s _).message]; exact optionRel_refl _
    · rw [retireMemberships_group]; exact ⟨rfl, rfl, rfl, id⟩
  | opened hpass => exact openEffect_quotaLaw hs hpass
  | resized hpass => exact resizeEffect_quotaLaw hs hpass
  | committed hpass hfree hblocks => exact committed_quotaLaw hs hpass hfree hblocks
  | setPortState _ _ _ =>
    exact quotaLaw_of_entries hs rfl (fun _ => optionRel_refl _) fun _ => ⟨rfl, rfl, rfl, id⟩
  | notify p _ =>
    refine quotaLaw_of_entries hs ?_ (fun r => ?_) fun g => ?_ <;> unfold State.notifyPort
    · split <;> rfl
    · split <;> exact optionRel_refl _
    · split <;> exact ⟨rfl, rfl, rfl, id⟩

end Sys2Proof.Machine.Directory

namespace Sys2Proof.Machine.Directory

open Laws MessagePool FrontEnds Sending Traffic Queues Handles Receiving Expiry SendLists Inactive

/-! ## The entries of the groups (R1, R5 to R7, R11, R25) -/

/-- What the law of the groups says of the entry `e` of group `g`. -/
structure EntryLaw (g : GroupNo) (e : Group) : Prop where
  station : g = 0 → e.state = .opened ∧ e.anchor = none ∧ e.senderRule = some .anyMember ∧ e.joinRule = none ∧
    e.quota = 16 ∧ e.defaultDeadline = 50
  free    : e.state = .free → e = Group.freed
  closing : e.state = .closing → 1 ≤ e.inFlight
  opened  : e.state = .opened → g ≠ 0 → e.anchor.isSome = true ∧ e.senderRule.isSome = true ∧
    e.joinRule.isSome = true ∧ 1 ≤ e.quota ∧ e.quota ≤ 112

theorem groupLaw_iff {s : State} : GroupLaw s ↔ ∀ g, EntryLaw g (s.group g) := by
  constructor
  · rintro ⟨hstation, hgroups⟩ g
    obtain ⟨hfree, hclosing, hopened⟩ := hgroups g
    exact ⟨fun hg => hg ▸ hstation, hfree, hclosing, hopened⟩
  · exact fun h => ⟨(h 0).station rfl, fun g => ⟨(h g).free, (h g).closing, (h g).opened⟩⟩

theorem freed_entryLaw {g : GroupNo} (hg : g ≠ 0) : EntryLaw g Group.freed :=
  ⟨fun h => absurd h hg, fun _ => rfl, nofun, nofun⟩

/-- Group 0 is never anything but OPEN (R6). -/
theorem EntryLaw.ne_zero {g : GroupNo} {e : Group} (h : EntryLaw g e) (hstate : e.state ≠ .opened) : g ≠ 0 :=
  fun hg => hstate (h.station hg).1

/-- An entry with its counts changed, that is still CLOSING only with a message in flight. -/
theorem EntryLaw.counts {g : GroupNo} {e : Group} (h : EntryLaw g e) {used inFlight : Nat}
    (hfree : e.state = .free → used = 0 ∧ inFlight = 0) (hclosing : e.state = .closing → 1 ≤ inFlight) :
    EntryLaw g { e with used := used, inFlight := inFlight } where
  station := h.station
  free hs := by
    obtain ⟨rfl, rfl⟩ := hfree hs
    have he := h.free hs
    subst he
    rfl
  closing := hclosing
  opened := h.opened

theorem uncharged_entryLaw {g : GroupNo} {e : Group} (h : EntryLaw g e) {m : Message}
    (hlast : ¬ (e.state = .closing ∧ e.inFlight - 1 = 0)) : EntryLaw g (uncharged m e) := by
  refine h.counts (fun hs => ?_) fun hs => ?_
  · have he := h.free hs
    subst he
    exact ⟨Nat.zero_sub _, rfl⟩
  · have h0 : ¬ e.inFlight - 1 = 0 := fun h0 => hlast ⟨hs, h0⟩
    omega

/-- An entry that becomes CLOSING, with or without its anchor, keeps the law where a message is in flight. -/
theorem closing_entryLaw {g : GroupNo} {e : Group} (hg : g ≠ 0) (hflight : e.inFlight ≠ 0) (anchor : Option Port) :
    EntryLaw g { e with state := .closing, anchor := anchor } :=
  ⟨fun h => absurd h hg, nofun, fun _ => Nat.one_le_iff_ne_zero.2 hflight, nofun⟩

theorem EntryLaw.withMembers {g : GroupNo} {e : Group} (h : EntryLaw g e) {members : PortSet}
    (hfree : e.state = .free → members = e.members) : EntryLaw g { e with members := members } where
  station := h.station
  free hs := by
    have he := h.free hs
    subst he
    rw [hfree rfl]
  closing := h.closing
  opened := h.opened

theorem erase_none (p : Port) : PortSet.erase PortSet.none p = PortSet.none := by
  revert p
  decide

theorem EntryLaw.eraseMember {g : GroupNo} {e : Group} (h : EntryLaw g e) (p : Port) :
    EntryLaw g { e with members := PortSet.erase e.members p } :=
  h.withMembers fun hs => by
    have he := h.free hs
    subst he
    exact erase_none p

/-- An operation on one group. -/
theorem groupLaw_of_group {s t : State} (hs : GroupLaw s) (g : GroupNo) (hother : ∀ k, k ≠ g → t.group k = s.group k)
    (hg : EntryLaw g (t.group g)) : GroupLaw t := by
  refine groupLaw_iff.2 fun k => ?_
  by_cases hk : k = g
  · exact hk ▸ hg
  · rw [hother k hk]; exact groupLaw_iff.1 hs k

theorem modGroup_groupLaw {s : State} (hs : GroupLaw s) (g : GroupNo) {f : Group → Group}
    (hf : EntryLaw g (s.group g) → EntryLaw g (f (s.group g))) : GroupLaw (s.modGroup g f) := by
  refine groupLaw_of_group hs g (fun k hk => modGroup_group_ne _ _ _ _ hk.symm) ?_
  rw [modGroup_group_same]
  exact hf (groupLaw_iff.1 hs g)

theorem groupLaw_of_same {s t : State} (hs : GroupLaw s) (h : ∀ g, t.group g = s.group g) : GroupLaw t :=
  groupLaw_of_group hs 0 (fun k _ => h k) (h 0 ▸ groupLaw_iff.1 hs 0)

/-- A group that loses its last message in flight is FREE where it was CLOSING (R5, R103). -/
theorem closeRecord_groupLaw {s : State} (hs : GroupLaw s) {r : RecordIndex} {m : Message}
    (hm : s.message r = some m) (retiring : Option Port) : GroupLaw (s.closeRecord retiring r) := by
  have hentry := groupLaw_iff.1 hs m.group
  refine groupLaw_of_group hs m.group (fun k hk => ?_) ?_
  · rw [closeRecord_group_eq hm, if_pos hk]
  · rw [closeRecord_group_eq hm, if_neg (not_not_intro rfl)]
    split
    · rename_i hfrees
      have hclosing := (groupFrees_iff.1 hfrees).1
      exact freed_entryLaw (hentry.ne_zero (by rw [hclosing]; decide))
    · rename_i hfrees
      exact uncharged_entryLaw hentry fun h => hfrees (groupFrees_iff.2 h)

theorem enterClosing_groupLaw {s : State} (hs : GroupLaw s) {g : GroupNo} (hg : g ≠ 0) (cause : Port)
    (closer : Option Port) : GroupLaw (s.enterClosing g cause closer) := by
  refine groupLaw_of_group hs g (fun k hk => by rw [enterClosing_group, if_pos hk]) ?_
  rw [enterClosing_group, if_neg (not_not_intro rfl)]
  split
  · exact freed_entryLaw hg
  · rename_i hflight
    exact closing_entryLaw hg hflight _

/-- Group 0 has no anchor to lose (R6). -/
theorem loseAnchor_groupLaw (p : Port) {s : State} (hs : GroupLaw s) (g : GroupNo) :
    GroupLaw (State.loseAnchor p s g) := by
  by_cases h : (s.group g).anchor = some p
  · have hentry := groupLaw_iff.1 hs g
    have hg : g ≠ 0 := fun h0 => by cases h.symm.trans (hentry.station h0).2.1
    refine groupLaw_of_group hs g (fun k hk => by rw [loseAnchor_group h, if_neg hk]) ?_
    rw [loseAnchor_group h, if_pos rfl, anchorLost]
    split
    · split
      · exact freed_entryLaw hg
      · rename_i hflight
        exact closing_entryLaw hg hflight none
    · rename_i hopen
      refine ⟨fun h0 => absurd h0 hg, fun hfree => ?_, hentry.closing, fun hopen' => absurd hopen' hopen⟩
      rw [hentry.free hfree] at h
      cases h
  · rw [loseAnchor_of_ne h]; exact hs

theorem openEffect_groupLaw {s : State} (hs : GroupLaw s) {p : Port} {g q sr jr dl : Byte}
    (hpass : firstFail (openChecks p g q sr jr dl s) = none) : GroupLaw (openEffect p g q sr jr dl s) := by
  have hg := group_ne_zero_of_passed (g := g) hpass (by simp [openChecks])
  have hparams := check_passed hpass (code := .badParam)
    (b := (senderRuleOf sr).isNone || (joinRuleOf jr).isNone || badDefaultDeadline dl || badQuota q)
    (by simp [openChecks])
  simp only [Bool.or_eq_false_iff, Option.isNone_eq_false_iff, badQuota, beq_eq_false_iff_ne,
    decide_eq_false_iff_not, Config.quotaLimit] at hparams
  obtain ⟨⟨⟨hsender, hjoin⟩, -⟩, hzero, hlimit⟩ := hparams
  refine modGroup_groupLaw (groupLaw_of_same hs (setReserved_group s _)) _ fun _ => ?_
  exact ⟨fun h => absurd h hg, nofun, nofun,
    fun _ _ => ⟨rfl, hsender, hjoin, Nat.one_le_iff_ne_zero.2 hzero, Nat.not_lt.1 hlimit⟩⟩

theorem resizeEffect_groupLaw {s : State} (hs : GroupLaw s) {p : Port} {g q : Byte}
    (hpass : firstFail (resizeChecks p g q s) = none) : GroupLaw (resizeEffect g q s) := by
  have hg := group_ne_zero_of_passed (g := g) hpass (by simp [resizeChecks])
  have hquota := check_passed hpass (b := badQuota q) (code := .badParam) (by simp [resizeChecks])
  simp only [Bool.or_eq_false_iff, badQuota, beq_eq_false_iff_ne, decide_eq_false_iff_not, Config.quotaLimit] at hquota
  have hstate : (s.group (groupNo g)).state ≠ .free := by
    simpa [State.groupIs] using check_passed hpass (b := s.groupIs g .free) (code := .groupFree) (by simp [resizeChecks])
  refine modGroup_groupLaw (groupLaw_of_same hs (setReserved_group s _)) _ fun h => ?_
  refine ⟨fun h0 => absurd h0 hg, fun hfree => absurd hfree hstate, h.closing, fun hopen _ => ?_⟩
  obtain ⟨hanchor, hsender, hjoin, -⟩ := h.opened hopen hg
  exact ⟨hanchor, hsender, hjoin, Nat.one_le_iff_ne_zero.2 hquota.1, Nat.not_lt.1 hquota.2⟩

/-- A commit raises the in-flight count of a group that is not FREE (R49). -/
theorem committed_groupLaw {s : State} (hs : GroupLaw s) {p : Port} {g tag flags len dl : Byte} {r : RecordIndex}
    (hpass : firstFail (sendChecks p g tag flags len dl s) = none) : GroupLaw (committed p g tag flags len dl r s) := by
  refine groupLaw_of_group hs (groupNo g) (fun k hk => by rw [committed_group, if_neg hk.symm]) ?_
  rw [committed_group, if_pos rfl]
  exact (groupLaw_iff.1 hs _).counts (fun h => absurd h (group_of_sendChecks hpass)) fun _ => Nat.le_add_left _ _

/-- Every turn keeps the entries of the groups in their legal forms. -/
theorem Turn.groupLaw {o : Option Port} {s t : State} (h : Turn o s t) (hs : GroupLaw s) : GroupLaw t := by
  induction h with
  | same h => exact groupLaw_of_same hs h.group
  | trans _ _ ih ih' => exact ih' (ih hs)
  | close hm retiring => exact closeRecord_groupLaw hs hm retiring
  | closing hg _ cause closer => exact enterClosing_groupLaw hs hg cause closer
  | loseAnchor p _ g => exact loseAnchor_groupLaw p hs g
  | addMember hstate _ =>
    refine modGroup_groupLaw hs _ fun h => h.withMembers fun hfree => ?_
    obtain h0 | hstate := hstate
    · cases hfree.symm.trans (h.station h0).1
    · exact absurd hfree hstate
  | removeMember _ _ p => exact modGroup_groupLaw hs _ fun h => h.eraseMember p
  | @removeMembers _ p _ =>
    refine groupLaw_iff.2 fun g => ?_
    rw [retireMemberships_group]
    exact (groupLaw_iff.1 hs g).eraseMember p
  | opened hpass => exact openEffect_groupLaw hs hpass
  | resized hpass => exact resizeEffect_groupLaw hs hpass
  | committed hpass _ _ => exact committed_groupLaw hs hpass
  | setPortState _ _ _ => exact groupLaw_of_same hs fun _ => rfl
  | notify p _ =>
    refine groupLaw_of_same hs fun g => ?_
    unfold State.notifyPort
    split <;> rfl

/-! ## The ranges of the figures (R31, R43, R98) -/

/-- The default deadline of a group that is not FREE is in its range (R11). -/
def DeadlineLaw (e : Group) : Prop := e.state ≠ .free → 1 ≤ e.defaultDeadline ∧ e.defaultDeadline ≤ 250

/-- The figures of a message are in their ranges, and its chain is as long as its length asks (R31, R43). -/
structure FiguresLaw (m : Message) : Prop where
  remaining : m.remaining ≤ 250
  positive  : 1 ≤ m.length
  limit     : m.length ≤ 255
  chain     : m.chain.length = blocksFor m.length

theorem boundsLaw_iff {s : State} :
    BoundsLaw s ↔ s.tickCount ≤ 255 ∧ (∀ g, DeadlineLaw (s.group g)) ∧
      ∀ r m, s.message r = some m → FiguresLaw m := by
  refine and_congr_right fun _ => and_congr_right fun _ => forall_congr' fun r => ?_
  rw [Option.all_eq_true]
  refine forall_congr' fun m => imp_congr_right fun _ => ?_
  rw [decide_eq_true_iff]
  exact ⟨fun ⟨h1, h2, h3, h4⟩ => ⟨h1, h2, h3, h4⟩, fun h => ⟨h.remaining, h.positive, h.limit, h.chain⟩⟩

/-- An operation on the groups that keeps every default deadline in its range. -/
theorem boundsLaw_of_groups {s t : State} (hs : BoundsLaw s) (htick : t.tickCount = s.tickCount)
    (hmessage : ∀ r m, t.message r = some m → s.message r = some m)
    (hgroup : ∀ g, DeadlineLaw (s.group g) → DeadlineLaw (t.group g)) : BoundsLaw t := by
  obtain ⟨hticks, hgroups, hmessages⟩ := boundsLaw_iff.1 hs
  exact boundsLaw_iff.2 ⟨htick ▸ hticks, fun g => hgroup g (hgroups g),
    fun r m hm => hmessages r m (hmessage r m hm)⟩

theorem freed_deadlineLaw : DeadlineLaw Group.freed := fun h => absurd rfl h

theorem modGroup_boundsLaw {s : State} (hs : BoundsLaw s) (g : GroupNo) {f : Group → Group}
    (hf : DeadlineLaw (s.group g) → DeadlineLaw (f (s.group g))) : BoundsLaw (s.modGroup g f) := by
  refine boundsLaw_of_groups hs rfl (fun _ _ => id) fun k => ?_
  rw [modGroup_group]
  split
  · rename_i hk; subst hk; exact hf
  · exact id

theorem closeRecord_boundsLaw {s : State} (hs : BoundsLaw s) {r : RecordIndex} {m : Message}
    (hm : s.message r = some m) (retiring : Option Port) : BoundsLaw (s.closeRecord retiring r) := by
  refine boundsLaw_of_groups hs (closeRecord_coreOnly s retiring r).tickCount (fun k m' hm' => ?_) fun k hk => ?_
  · rw [closeRecord_message hm] at hm'
    split at hm'
    · cases hm'
    · exact hm'
  · rw [closeRecord_group_eq hm]
    split
    · exact hk
    · split
      · exact freed_deadlineLaw
      · exact hk

/-- Only an OPEN group enters CLOSING, so its default deadline was in its range before. -/
theorem enterClosing_boundsLaw {s : State} (hs : BoundsLaw s) {g : GroupNo} (hopen : (s.group g).state = .opened)
    (cause : Port) (closer : Option Port) : BoundsLaw (s.enterClosing g cause closer) := by
  refine boundsLaw_of_groups hs (enterClosing_coreOnly s g cause closer).tickCount (fun r m hm => ?_) fun k hk => ?_
  · rwa [enterClosing_message] at hm
  · rw [enterClosing_group]
    split
    · exact hk
    · rename_i h
      split
      · exact freed_deadlineLaw
      · exact fun _ => not_not.1 h ▸ hk (by rw [not_not.1 h, hopen]; decide)

theorem loseAnchor_boundsLaw (p : Port) {s : State} (hs : BoundsLaw s) (g : GroupNo) :
    BoundsLaw (State.loseAnchor p s g) := by
  have hlost : BoundsLaw (s.modGroup g fun e => { e with anchor := none }) := modGroup_boundsLaw hs g id
  by_cases h : (s.group g).anchor = some p
  · by_cases hopen : (s.group g).state = .opened
    · rw [loseAnchor_of_opened h hopen]
      exact enterClosing_boundsLaw hlost (by rw [modGroup_group_same]; exact hopen) p none
    · rw [loseAnchor_of_not_opened h hopen]; exact hlost
  · rw [loseAnchor_of_ne h]; exact hs

theorem openEffect_boundsLaw {s : State} (hs : BoundsLaw s) {p : Port} {g q sr jr dl : Byte}
    (hpass : firstFail (openChecks p g q sr jr dl s) = none) : BoundsLaw (openEffect p g q sr jr dl s) := by
  have hparams := check_passed hpass (code := .badParam)
    (b := (senderRuleOf sr).isNone || (joinRuleOf jr).isNone || badDefaultDeadline dl || badQuota q)
    (by simp [openChecks])
  simp only [Bool.or_eq_false_iff, badDefaultDeadline, beq_eq_false_iff_ne, decide_eq_false_iff_not,
    Config.deadlineLimit] at hparams
  obtain ⟨⟨-, hzero, hlimit⟩, -⟩ := hparams
  have hreserved : BoundsLaw (s.setReserved (s.reservedTotal + q.toNat)) :=
    boundsLaw_of_groups hs rfl (fun _ _ => id) fun _ => id
  exact modGroup_boundsLaw hreserved _ fun _ _ => ⟨Nat.one_le_iff_ne_zero.2 hzero, Nat.not_lt.1 hlimit⟩

theorem resizeEffect_boundsLaw {s : State} (hs : BoundsLaw s) (g q : Byte) : BoundsLaw (resizeEffect g q s) := by
  have hreserved : BoundsLaw (s.setReserved (s.reservedTotal + q.toNat - (s.group (groupNo g)).quota)) :=
    boundsLaw_of_groups hs rfl (fun _ _ => id) fun _ => id
  exact modGroup_boundsLaw hreserved _ id

/-- The message of a commit has the length of its parameter, the chain that the length asks for, and the deadline of
its parameter or of its group (R31, R43, R50). -/
theorem committed_boundsLaw {s : State} (hs : BoundsLaw s) {p : Port} {g tag flags len dl : Byte} {r : RecordIndex}
    (hpass : firstFail (sendChecks p g tag flags len dl s) = none) (hblocks : blocksFor len.toNat ≤ s.freeList.length) :
    BoundsLaw (committed p g tag flags len dl r s) := by
  obtain ⟨hticks, hgroups, hmessages⟩ := boundsLaw_iff.1 hs
  have hparams := check_passed hpass (code := .badParam)
    (b := badFlags flags || len.toNat == 0 || decide (Config.deadlineLimit < dl.toNat)) (by simp [sendChecks])
  simp only [Bool.or_eq_false_iff, beq_eq_false_iff_ne, decide_eq_false_iff_not, Config.deadlineLimit] at hparams
  obtain ⟨⟨-, hlen⟩, hdeadline⟩ := hparams
  have hfigures : FiguresLaw (s.messageSent p g tag flags len dl) := by
    rw [messageSent_eq]
    refine ⟨?_, Nat.one_le_iff_ne_zero.2 hlen, Nat.lt_succ_iff.1 len.isLt, List.length_take_of_le hblocks⟩
    simp only [messageOf, deadlineOf]
    split
    · exact (hgroups _ (group_of_sendChecks hpass)).2
    · exact Nat.not_lt.1 hdeadline
  have htick : (committed p g tag flags len dl r s).tickCount = s.tickCount :=
    (commitTargets_coreOnly p g tag flags r _).tickCount
  refine boundsLaw_iff.2 ⟨htick ▸ hticks, fun k => ?_, fun k m hm => ?_⟩
  · rw [committed_group]
    split
    · exact hgroups k
    · exact hgroups k
  · rw [State.message, committed_record] at hm
    split at hm
    · cases hm
      exact hfigures
    · exact hmessages k m hm

/-- Every turn keeps the figures in their ranges. -/
theorem Turn.boundsLaw {o : Option Port} {s t : State} (h : Turn o s t) (hs : BoundsLaw s) : BoundsLaw t := by
  induction h with
  | @same s t h =>
    obtain ⟨hticks, hgroups, hmessages⟩ := boundsLaw_iff.1 hs
    refine boundsLaw_iff.2 ⟨h.tickCount hticks, fun g => h.group g ▸ hgroups g, fun r m hm => ?_⟩
    have hrel := h.message r
    rw [hm] at hrel
    cases hmessage : s.message r with
    | none => rw [hmessage] at hrel; cases hrel
    | some m' =>
      rw [hmessage] at hrel
      cases hrel with
      | some hcharge =>
        obtain ⟨hremaining, hpositive, hlimit, hchain⟩ := hmessages r m' hmessage
        exact ⟨hcharge.remaining.trans hremaining, hcharge.length ▸ hpositive, hcharge.length ▸ hlimit,
          by rw [hcharge.chain, hcharge.length, hchain]⟩
  | trans _ _ ih ih' => exact ih' (ih hs)
  | close hm retiring => exact closeRecord_boundsLaw hs hm retiring
  | closing _ hopen cause closer => exact enterClosing_boundsLaw hs hopen cause closer
  | loseAnchor p _ g => exact loseAnchor_boundsLaw p hs g
  | addMember _ _ => exact modGroup_boundsLaw hs _ id
  | removeMember _ _ _ => exact modGroup_boundsLaw hs _ id
  | removeMembers s _ =>
    refine boundsLaw_of_groups hs (mapGroups_tickCount s _) (fun r m hm => ?_) fun g => ?_
    · rwa [State.retireMemberships, (mapGroups_sameRecords s _).message] at hm
    · rw [retireMemberships_group]; exact id
  | opened hpass => exact openEffect_boundsLaw hs hpass
  | resized _ => exact resizeEffect_boundsLaw hs _ _
  | committed hpass _ hblocks => exact committed_boundsLaw hs hpass hblocks
  | setPortState _ _ _ => exact boundsLaw_of_groups hs rfl (fun _ _ => id) fun _ => id
  | notify p _ =>
    refine boundsLaw_of_groups hs ?_ (fun r m => ?_) fun g => ?_ <;> unfold State.notifyPort
    · split <;> rfl
    · split <;> exact id
    · split <;> exact id

end Sys2Proof.Machine.Directory

namespace Sys2Proof.Machine.Directory

open Laws MessagePool FrontEnds Sending Traffic Queues Handles Receiving Expiry SendLists Inactive

/-! ## The stations (R6, R126) -/

/-- Port `q` has no place in the hub: no send-list entry, no roster notice, no group. -/
structure NoPlace (s : State) (q : Port) : Prop where
  idle    : Idle (s.port q)
  outside : ∀ g, Outside (s.group g) q

/-- Port `q` is a member of group 0 just while it is ACTIVE, and has a place only then. -/
structure StationedAt (s : State) (q : Port) : Prop where
  member   : PortSet.has (s.group 0).members q = true ↔ (s.port q).portState = .active
  inactive : (s.port q).portState ≠ .active → NoPlace s q

/-- The law of the stations, but for port `o`. -/
structure StationedBut (o : Option Port) (s : State) : Prop where
  station : OpenStation s
  place   : ∀ q, o ≠ some q → StationedAt s q

theorem stationLaw_iff {s : State} : StationLaw s ↔ StationedBut none s := by
  constructor
  · rintro ⟨hopened, hanchor, hmembers, hinactive⟩
    refine ⟨⟨hopened, hanchor⟩, fun q _ => ⟨hmembers q, fun hq => ?_⟩⟩
    obtain ⟨hgroups, hsends, hdone, hroster⟩ := hinactive q hq
    exact ⟨⟨hsends, hdone, hroster⟩, fun g => ⟨(hgroups g).1, (hgroups g).2⟩⟩
  · rintro ⟨⟨hopened, hanchor⟩, hplace⟩
    refine ⟨hopened, hanchor, fun q => (hplace q nofun).member, fun q hq => ?_⟩
    obtain ⟨⟨hsends, hdone, hroster⟩, houtside⟩ := (hplace q nofun).inactive hq
    exact ⟨fun g => ⟨(houtside g).member, (houtside g).anchor⟩, hsends, hdone, hroster⟩

/-- An operation that gives no port a place keeps the stations. -/
theorem stationedBut_of_recedes {s t : State} (h : Recedes s t) (hidle : ∀ q, NoPlace s q → Idle (t.port q))
    {o : Option Port} (hs : StationedBut o s) : StationedBut o t := by
  obtain ⟨hstation, hmembers⟩ := h.station hs.station
  refine ⟨hstation, fun q hq => ⟨?_, fun hinactive => ?_⟩⟩
  · rw [hmembers, h.portState]
    exact (hs.place q hq).member
  · rw [h.portState] at hinactive
    have hnone := (hs.place q hq).inactive hinactive
    exact ⟨hidle q hnone, fun g => ⟨h.member g q (hnone.outside g).member, h.anchor g q (hnone.outside g).anchor⟩⟩

/-- A port that hears of no group's change is as idle as before. -/
theorem told_idle {b : Bool} {c : CorePort} (hb : b = false) (hc : Idle c) : Idle (told b c) := by
  rw [hb, told_false]
  exact hc

/-- An operation on the groups and the ports that keeps the stations. -/
theorem SameDirectory.stationedAt {s t : State} (h : SameDirectory s t) {q : Port} (hq : StationedAt s q) :
    StationedAt t q := by
  refine ⟨?_, fun hinactive => ?_⟩
  · rw [h.group, h.portState]
    exact hq.member
  · rw [h.portState] at hinactive
    have hnone := hq.inactive hinactive
    exact ⟨h.idle q hnone.idle, fun g => h.group g ▸ hnone.outside g⟩

theorem SameDirectory.stationedBut {s t : State} (h : SameDirectory s t) {o : Option Port} (hs : StationedBut o s) :
    StationedBut o t :=
  ⟨by rw [OpenStation, h.group]; exact hs.station, fun q hq => h.stationedAt (hs.place q hq)⟩

theorem closeRecord_stationedBut {s : State} {r : RecordIndex} {m : Message} (hm : s.message r = some m)
    (retiring : Option Port) {o : Option Port} (hs : StationedBut o s) :
    StationedBut o (s.closeRecord retiring r) := by
  have hrecedes : Recedes s (s.closeRecord retiring r) := by
    rw [closeRecord_some hm]
    exact (((closeEntry_recedes s retiring r m).trans (setFreeList_recedes _ _)).trans
      (releaseCharge_recedes _ m)).trans (retireRecord_recedes _ r)
  refine stationedBut_of_recedes hrecedes (fun q hq => ?_) hs
  rw [closeRecord_port_eq hm]
  refine told_idle ?_ ((closeEntry_sameDirectory s retiring r m).idle q hq.idle)
  rw [(hq.outside m.group).member, Bool.and_false]

theorem enterClosing_stationedBut {s : State} {g : GroupNo} (hg : g ≠ 0) (cause : Port) (closer : Option Port)
    {o : Option Port} (hs : StationedBut o s) : StationedBut o (s.enterClosing g cause closer) := by
  refine stationedBut_of_recedes (enterClosing_recedes s hg cause closer) (fun q hq => ?_) hs
  rw [enterClosing_port]
  exact told_idle (by rw [(hq.outside g).member, Bool.false_and]) hq.idle

/-- An update of a group other than group 0 that makes none but ACTIVE ports member or anchor. -/
theorem StationedBut.modGroup {o : Option Port} {s : State} (hs : StationedBut o s) {g : GroupNo} (hg : g ≠ 0)
    {f : Group → Group}
    (hf : ∀ q, (s.port q).portState ≠ .active → Outside (s.group g) q → Outside (f (s.group g)) q) :
    StationedBut o (s.modGroup g f) := by
  refine ⟨?_, fun q hq => ⟨?_, fun hinactive => ?_⟩⟩
  · rw [OpenStation, modGroup_group_ne _ _ _ _ hg]; exact hs.station
  · rw [modGroup_group_ne _ _ _ _ hg]; exact (hs.place q hq).member
  · have hnone := (hs.place q hq).inactive hinactive
    refine ⟨hnone.idle, fun k => ?_⟩
    rw [modGroup_group]
    split
    · rename_i h; subst h; exact hf q hinactive (hnone.outside g)
    · exact hnone.outside k

theorem loseAnchor_stationedBut (p : Port) {o : Option Port} {s : State} (hs : StationedBut o s) (g : GroupNo) :
    StationedBut o (State.loseAnchor p s g) := by
  by_cases h : (s.group g).anchor = some p
  · have hg : g ≠ 0 := by
      rintro rfl
      cases h.symm.trans hs.station.2
    have hlost : StationedBut o (s.modGroup g fun e => { e with anchor := none }) :=
      hs.modGroup hg fun _ _ hout => ⟨hout.member, nofun⟩
    by_cases hopen : (s.group g).state = .opened
    · rw [loseAnchor_of_opened h hopen]; exact enterClosing_stationedBut hg p none hlost
    · rw [loseAnchor_of_not_opened h hopen]; exact hlost
  · rw [loseAnchor_of_ne h]; exact hs

theorem has_insert_of_ne {m : PortSet} {p q : Port} (h : q ≠ p) :
    PortSet.has (PortSet.insert m p) q = PortSet.has m q := by
  rw [has_insert, decide_eq_false h, Bool.or_false]

theorem has_erase_of_ne {m : PortSet} {p q : Port} (h : q ≠ p) :
    PortSet.has (PortSet.erase m p) q = PortSet.has m q := by
  rw [has_erase, decide_eq_true h, Bool.and_true]

/-- Only ACTIVE ports become members, but for a port that attaches (R6, R130). -/
theorem addMember_stationedBut {o : Option Port} {s : State} (hs : StationedBut o s) {g : GroupNo} {p : Port}
    (hplace : o = some p ∨ (g ≠ 0 ∧ (s.port p).portState = .active)) : StationedBut o (s.addMember g p) := by
  obtain ho | ⟨hg, hp⟩ := hplace
  · have hother (k : GroupNo) (q : Port) (hq : o ≠ some q) :
        PortSet.has ((s.addMember g p).group k).members q = PortSet.has (s.group k).members q ∧
          ((s.addMember g p).group k).anchor = (s.group k).anchor := by
      rw [State.addMember, modGroup_group]
      split
      · rename_i h; subst h
        exact ⟨has_insert_of_ne fun h => hq (h ▸ ho), rfl⟩
      · exact ⟨rfl, rfl⟩
    refine ⟨?_, fun q hq => ⟨?_, fun hinactive => ?_⟩⟩
    · rw [OpenStation, State.addMember, modGroup_group]
      split
      · rename_i h; exact h ▸ hs.station
      · exact hs.station
    · rw [(hother 0 q hq).1]; exact (hs.place q hq).member
    · obtain ⟨hidle, houtside⟩ := (hs.place q hq).inactive hinactive
      refine ⟨hidle, fun k => ⟨?_, ?_⟩⟩
      · rw [(hother k q hq).1]; exact (houtside k).member
      · rw [(hother k q hq).2]; exact (houtside k).anchor
  · refine hs.modGroup hg fun q hinactive hout => ⟨?_, hout.anchor⟩
    rw [has_insert_of_ne (ne_of_inactive hp hinactive)]
    exact hout.member

theorem removeMember_stationedBut {o : Option Port} {s : State} (hs : StationedBut o s) {g : GroupNo} (hg : g ≠ 0)
    (p : Port) : StationedBut o (s.removeMember g p) := by
  refine hs.modGroup hg fun q _ hout => ⟨?_, hout.anchor⟩
  rw [has_erase, hout.member, Bool.false_and]

/-- Only the retiring port leaves its groups (R135). -/
theorem retireMemberships_stationedBut {p : Port} {s : State} (hs : StationedBut (some p) s) :
    StationedBut (some p) (s.retireMemberships p) := by
  have hport (q : Port) : (s.retireMemberships p).port q = s.port q := mapGroups_port s _ q
  refine ⟨retireMemberships_openStation hs.station p, fun q hq => ?_⟩
  have hne : q ≠ p := fun h => hq (h ▸ rfl)
  obtain ⟨hmember, hinactive⟩ := hs.place q hq
  refine ⟨?_, fun h => ?_⟩
  · rw [retireMemberships_group, hport, has_erase_of_ne hne]
    exact hmember
  · rw [hport] at h
    refine ⟨by rw [hport]; exact (hinactive h).idle, fun g => ?_⟩
    rw [retireMemberships_group]
    exact ⟨by rw [has_erase_of_ne hne]; exact ((hinactive h).outside g).member, ((hinactive h).outside g).anchor⟩

/-- An update of one port that keeps the state and the place of any other. -/
theorem StationedBut.modPort {o : Option Port} {s : State} (hs : StationedBut o s) {p : Port} {f : CorePort → CorePort}
    (hp : o ≠ some p → (s.port p).portState = .active ∧ (f (s.port p)).portState = .active) :
    StationedBut o (s.modPort p f) := by
  refine ⟨hs.station, fun q hq => ?_⟩
  by_cases hpq : p = q
  · subst hpq
    obtain ⟨hactive, hafter⟩ := hp hq
    refine ⟨?_, fun hinactive => ?_⟩
    · rw [modPort_port_same]
      exact iff_of_true ((hs.place p hq).member.2 hactive) hafter
    · rw [modPort_port_same] at hinactive
      exact absurd hafter hinactive
  · obtain ⟨hmember, hnone⟩ := hs.place q hq
    have hport := modPort_port_ne s p f q hpq
    refine ⟨by rw [hport]; exact hmember, fun h => ?_⟩
    rw [hport] at h
    exact ⟨by rw [hport]; exact (hnone h).idle, (hnone h).outside⟩

theorem openEffect_stationedBut {o : Option Port} {s : State} (hs : StationedBut o s) {p : Port} {g q sr jr dl : Byte}
    (hpass : firstFail (openChecks p g q sr jr dl s) = none) : StationedBut o (openEffect p g q sr jr dl s) := by
  have hp : (s.port p).portState = .active := active_of_passed hpass (code := .notAttached) (by simp [openChecks])
  have hg := group_ne_zero_of_passed (g := g) hpass (by simp [openChecks])
  have hreserved : StationedBut o (s.setReserved (s.reservedTotal + q.toNat)) :=
    ⟨hs.station, fun k hk => ⟨(hs.place k hk).member, fun h =>
      ⟨((hs.place k hk).inactive h).idle, ((hs.place k hk).inactive h).outside⟩⟩⟩
  refine hreserved.modGroup hg fun k hk _ => ⟨?_, ?_⟩
  · rw [has_insert_of_ne (ne_of_inactive hp hk), has_none]
  · exact fun h => ne_of_inactive hp hk (Option.some.inj h).symm

theorem resizeEffect_stationedBut {o : Option Port} {s : State} (hs : StationedBut o s) {p : Port} {g q : Byte}
    (hpass : firstFail (resizeChecks p g q s) = none) : StationedBut o (resizeEffect g q s) := by
  have hg := group_ne_zero_of_passed (g := g) hpass (by simp [resizeChecks])
  have hreserved : StationedBut o (s.setReserved (s.reservedTotal + q.toNat - (s.group (groupNo g)).quota)) :=
    ⟨hs.station, fun k hk => ⟨(hs.place k hk).member, fun h =>
      ⟨((hs.place k hk).inactive h).idle, ((hs.place k hk).inactive h).outside⟩⟩⟩
  exact hreserved.modGroup hg fun _ _ hout => ⟨hout.member, hout.anchor⟩

/-- What a commit does to a target's port is outside its send list and its roster latch (R52). -/
theorem portAfter_notices (s : State) (r : RecordIndex) (m : Message) (q : Port) :
    (portAfter s r m q).sends = (s.port q).sends ∧ (portAfter s r m q).doneOrder = (s.port q).doneOrder ∧
      (portAfter s r m q).roster = (s.port q).roster := by
  rw [portAfter]
  split
  · simp only [offered]
    split <;> exact ⟨rfl, rfl, rfl⟩
  · exact ⟨rfl, rfl, rfl⟩

/-- A commit gives a send-list entry to the sender alone, which is ACTIVE (R51, R112). -/
theorem committed_stationedBut {o : Option Port} {s : State} (hs : StationedBut o s) {p : Port}
    {g tag flags len dl : Byte} {r : RecordIndex} (hpass : firstFail (sendChecks p g tag flags len dl s) = none) :
    StationedBut o (committed p g tag flags len dl r s) := by
  have hp : (s.port p).portState = .active := active_of_passed hpass (code := .notAttached) (by simp [sendChecks])
  have hgroup (k : GroupNo) : ((committed p g tag flags len dl r s).group k).members = (s.group k).members ∧
      ((committed p g tag flags len dl r s).group k).anchor = (s.group k).anchor ∧
      ((committed p g tag flags len dl r s).group k).state = (s.group k).state := by
    rw [committed_group]
    split <;> exact ⟨rfl, rfl, rfl⟩
  obtain ⟨hmembers, hanchor, hstate⟩ := hgroup 0
  have hportState := (committed_delivered p g tag flags len dl r s).portState
  refine ⟨?_, fun q hq => ⟨?_, fun hinactive => ?_⟩⟩
  · rw [OpenStation, hstate, hanchor]; exact hs.station
  · rw [hmembers, hportState]; exact (hs.place q hq).member
  · rw [hportState] at hinactive
    obtain ⟨⟨hsends, hdone, hroster⟩, houtside⟩ := (hs.place q hq).inactive hinactive
    refine ⟨?_, fun k => ?_⟩
    · obtain ⟨hsends', hdone', hroster'⟩ := portAfter_notices s r (s.messageSent p g tag flags len dl) q
      rw [committed_port, if_neg (ne_of_inactive hp hinactive).symm]
      exact ⟨hsends'.trans hsends, hdone'.trans hdone, hroster'.trans hroster⟩
    · obtain ⟨hmembers, hanchor, -⟩ := hgroup k
      exact ⟨by rw [hmembers]; exact (houtside k).member, by rw [hanchor]; exact (houtside k).anchor⟩

/-- Every turn keeps the stations, but for the port that attaches or is retired. -/
theorem Turn.stationedBut {o : Option Port} {s t : State} (h : Turn o s t) (hs : StationedBut o s) :
    StationedBut o t := by
  induction h with
  | same h => exact h.stationedBut hs
  | trans _ _ ih ih' => exact ih' (ih hs)
  | close hm retiring => exact closeRecord_stationedBut hm retiring hs
  | closing hg _ cause closer => exact enterClosing_stationedBut hg cause closer hs
  | loseAnchor p _ g => exact loseAnchor_stationedBut p hs g
  | addMember _ hplace => exact addMember_stationedBut hs hplace
  | removeMember _ hg p => exact removeMember_stationedBut hs hg p
  | removeMembers _ ho => subst ho; exact retireMemberships_stationedBut hs
  | opened hpass => exact openEffect_stationedBut hs hpass
  | resized hpass => exact resizeEffect_stationedBut hs hpass
  | committed hpass _ _ => exact committed_stationedBut hs hpass
  | setPortState _ ho _ => exact hs.modPort fun h => absurd ho h
  | notify p hq =>
    unfold State.notifyPort
    split
    · exact hs
    · exact hs.modPort fun hne => ⟨hq.resolve_left hne, hq.resolve_left hne⟩

/-! ## The turns of the commands -/

/-- `t` is reached from `s` by turns of the directory that leave every port at its station. -/
def Turns (s t : State) : Prop := ∃ o, Turn o s t ∧ (StationLaw s → ∀ p, o = some p → StationedAt t p)

theorem Turn.turns {s t : State} (h : Turn none s t) : Turns s t := ⟨none, h, fun _ _ => nofun⟩

theorem SameDirectory.turns {s t : State} (h : SameDirectory s t) : Turns s t := (Turn.same h).turns

theorem Turns.refl (s : State) : Turns s s := (Turn.refl none s).turns

theorem Turns.stationLaw {s t : State} (h : Turns s t) (hs : StationLaw s) : StationLaw t := by
  obtain ⟨o, hturn, hplace⟩ := h
  have hall := stationLaw_iff.1 hs
  obtain ⟨hstation, hothers⟩ := hturn.stationedBut ⟨hall.station, fun q _ => hall.place q nofun⟩
  refine stationLaw_iff.2 ⟨hstation, fun q _ => ?_⟩
  by_cases hq : o = some q
  · exact hplace hs q hq
  · exact hothers q hq

theorem Turns.same {s t u : State} (h : Turns s t) (k : SameDirectory t u) : Turns s u := by
  obtain ⟨o, hturn, hplace⟩ := h
  exact ⟨o, hturn.trans (.same k), fun hs p hp => k.stationedAt (hplace hs p hp)⟩

theorem SameDirectory.then {s t u : State} (h : SameDirectory s t) (k : Turns t u) : Turns s u := by
  obtain ⟨o, hturn, hplace⟩ := k
  exact ⟨o, (Turn.same h).trans hturn, fun hs => hplace (h.turns.stationLaw hs)⟩

/-- The retired port is out of every group, and its send list and its notices are cleared (R135 to R137). -/
theorem retire_turns (s : State) (p : Port) {final : PortState} (hfinal : final ≠ .active) :
    Turns s (s.retire p final) := by
  refine ⟨some p, retire_turn s p final, fun hs q hq => ?_⟩
  cases hq
  have hopen : OpenStation (s.retireTargets p) := ((retireTargets_recedes s p).station (stationLaw_iff.1 hs).station).1
  have houtside (g : GroupNo) : Outside ((s.retire p final).group g) p := by
    rw [retire_group]
    exact retireMessages_outside hopen p g
  have hport := retire_port s p final p
  rw [if_pos rfl] at hport
  refine ⟨?_, fun _ => ⟨?_, houtside⟩⟩
  · rw [(houtside 0).member, hport]
    exact iff_of_false nofun hfinal
  · rw [hport]
    exact ⟨rfl, rfl, rfl⟩

theorem attachEffect_turns (s : State) (p : Port) : Turns s (attachEffect p s) := by
  refine ⟨some p, (Turn.setPortState s rfl .active).trans (.addMember (.inl rfl) (.inl rfl)), fun _ q hq => ?_⟩
  cases hq
  have hstate : ((attachEffect p s).port p).portState = .active := by
    rw [attachEffect, State.addMember, modGroup_port, State.setPortState, modPort_port_same]
  refine ⟨?_, fun h => absurd hstate h⟩
  rw [hstate, attachEffect, State.addMember, modGroup_group_same, has_insert]
  simp

/-- A port that is not ACTIVE has no place, whatever its state becomes. -/
theorem setPortState_turns {s : State} {p : Port} (hp : (s.port p).portState ≠ .active) {final : PortState}
    (hfinal : final ≠ .active) : Turns s (s.setPortState p final) := by
  refine ⟨some p, .setPortState s rfl final, fun hs q hq => ?_⟩
  cases hq
  obtain ⟨hmember, hinactive⟩ := (stationLaw_iff.1 hs).place p nofun
  have hport : (s.setPortState p final).port p = { s.port p with portState := final } := modPort_port_same s p _
  refine ⟨?_, fun _ => ⟨?_, (hinactive hp).outside⟩⟩
  · rw [hport]
    exact iff_of_false (mt hmember.1 hp) hfinal
  · rw [hport]
    obtain ⟨hsends, hdone, hroster⟩ := (hinactive hp).idle
    exact ⟨hsends, hdone, hroster⟩

theorem presenceEffect_turns (p : Port) (lostSeen present : Bool) (s : State) :
    Turns s (presenceEffect p lostSeen present s) := by
  unfold presenceEffect
  split
  · split
    · exact retire_turns s p (levelState_ne_active present)
    · rename_i hp
      exact setPortState_turns hp (levelState_ne_active present)
  · split
    · rename_i habsent
      simp only [Bool.and_eq_true, beq_iff_eq] at habsent
      exact setPortState_turns (by rw [habsent.2]; decide) (by decide)
    · exact .refl s

/-- Whatever tables the effect of a command gives, turns of the directory lead there. -/
def EffectTurns (s : State) (effect : CoreResult) : Prop := ∀ t reply, effect = .ok (t, reply) → Turns s t

theorem EffectTurns.ok {s t : State} (reply : List Byte) (h : Turns s t) : EffectTurns s (.ok (t, reply)) := by
  intro u _ hu
  cases hu
  exact h

theorem EffectTurns.error (s : State) (f : Fault) : EffectTurns s (.error f) := by
  intro u _ hu
  cases hu

theorem EffectTurns.judged {s : State} {effect : CoreResult} {cs : List (Bool × ResultCode)}
    (h : firstFail cs = none → EffectTurns s effect) : EffectTurns s (judged s cs effect) := by
  intro t reply ht
  obtain ⟨_, _, rfl, _⟩ | ⟨hpass, he⟩ := judged_cases ht
  · exact .refl t
  · exact h hpass t reply he

theorem takeCommand_turns (p : Port) (req : Request) {effect : State → CoreResult} {s : State}
    (h : EffectTurns s (effect s)) : OnNext (takeCommand p req effect s) (Turns s) := by
  intro u hu
  obtain ⟨_, rfl⟩ | ⟨_, t, reply, he, rfl⟩ := takeCommand_cases hu
  · exact .refl u
  · exact (h t reply he).same (afterTaking_sameDirectory p t reply)

theorem takeOkAlone_turns (p : Port) {req : Request} {checks : State → List (Bool × ResultCode)}
    {effect : State → State} {s : State} (h : firstFail (checks s) = none → Turns s (effect s)) :
    OnNext (takeCommand p req (fun s => judged s (checks s) (okAlone (effect s))) s) (Turns s) :=
  takeCommand_turns p req (.judged fun hpass => .ok _ (h hpass))

section Commands

variable {s : State}

theorem close_turns {p : Port} {g : Byte} (hpass : firstFail (closeChecks p g s) = none) :
    Turns s (s.enterClosing (groupNo g) p (some p)) := by
  have hg := group_ne_zero_of_passed (g := g) hpass (by simp [closeChecks])
  have hfree := check_passed hpass (b := s.groupIs g .free) (code := .groupFree) (by simp [closeChecks])
  have hclosing := check_passed hpass (b := s.groupIs g .closing) (code := .groupClosing) (by simp [closeChecks])
  simp only [State.groupIs, beq_eq_false_iff_ne] at hfree hclosing
  refine (Turn.closing hg ?_ p (some p)).turns
  cases hstate : (s.group (groupNo g)).state with
  | free => exact absurd hstate hfree
  | opened => rfl
  | closing => exact absurd hstate hclosing

theorem join_turns {p : Port} {g : Byte} (hpass : firstFail (joinChecks p g s) = none) :
    Turns s (s.addMember (groupNo g) p) := by
  have hfree := check_passed hpass (b := s.groupIs g .free) (code := .groupFree) (by simp [joinChecks])
  simp only [State.groupIs, beq_eq_false_iff_ne] at hfree
  exact (Turn.addMember (.inr hfree) (.inr ⟨group_ne_zero_of_passed (g := g) hpass (by simp [joinChecks]),
    active_of_passed hpass (code := .notAttached) (by simp [joinChecks])⟩)).turns

theorem leave_turns {p : Port} {g : Byte} (hpass : firstFail (leaveChecks p g s) = none) :
    Turns s ((s.removeMember (groupNo g) p).withdrawGroup p (groupNo g)) :=
  ((Turn.removeMember s (group_ne_zero_of_passed hpass (by simp [leaveChecks])) p).trans
    (withdrawAll_turn _ _ none p _)).turns

theorem enrol_turns {p : Port} {g port : Byte} (hpass : firstFail (enrolChecks p g port s) = none) :
    Turns s ((s.addMember (groupNo g) (portNo port)).notifyPort p (portNo port)) := by
  have hnamed : (s.port (portNo port)).portState = .active :=
    active_of_passed hpass (code := .portNotActive) (by simp [enrolChecks])
  have hg := group_ne_zero_of_passed (g := g) hpass (by simp [enrolChecks])
  have hfree := check_passed hpass (b := s.groupIs g .free) (code := .groupFree) (by simp [enrolChecks])
  simp only [State.groupIs, beq_eq_false_iff_ne] at hfree
  exact ((Turn.addMember (.inr hfree) (.inr ⟨hg, hnamed⟩)).trans (.notify p (.inr hnamed))).turns

/-- An expelled port is a member, and so ACTIVE where the stations hold (R126). -/
theorem expel_turns {p : Port} {g port : Byte} (hpass : firstFail (expelChecks p g port s) = none) :
    Turns s (((s.removeMember (groupNo g) (portNo port)).notifyPort p (portNo port)).withdrawGroup (portNo port)
      (groupNo g)) := by
  have hg := group_ne_zero_of_passed (g := g) hpass (by simp [expelChecks])
  have hmember := check_passed hpass (b := !s.isMember (portNo port) g) (code := .notMember) (by simp [expelChecks])
  have hturn {o : Option Port} (ho : o = some (portNo port) ∨ (s.port (portNo port)).portState = .active) :
      Turn o s (((s.removeMember (groupNo g) (portNo port)).notifyPort p (portNo port)).withdrawGroup (portNo port)
        (groupNo g)) :=
    ((Turn.removeMember s hg _).trans (.notify p ho)).trans (withdrawAll_turn _ _ none _ _)
  by_cases hs : StationLaw s
  · refine (hturn (o := none) (.inr ?_)).turns
    by_contra hinactive
    rw [State.isMember, ((((stationLaw_iff.1 hs).place _ nofun).inactive hinactive).outside _).member] at hmember
    cases hmember
  · exact ⟨some (portNo port), hturn (.inl rfl), fun h => absurd h hs⟩

end Commands

end Sys2Proof.Machine.Directory

namespace Sys2Proof.Machine.Directory

open Laws MessagePool FrontEnds Sending Traffic Queues Handles Receiving Expiry SendLists Inactive

section Effects

variable {s : State}

theorem sendEffect_turns {p : Port} {g tag flags len dl : Byte}
    (hpass : firstFail (sendChecks p g tag flags len dl s) = none) :
    EffectTurns s (sendEffect p g tag flags len dl s) := by
  unfold sendEffect
  split
  · exact .error s _
  · rename_i r hr
    split
    · exact .error s _
    · rename_i hblocks
      exact .ok _ ((Turn.committed hpass (message_of_freeRecord hr) (Nat.not_lt.1 hblocks)).trans
        (closeIfSettled_turn none _ none r)).turns

theorem fetchUnconfirmed_turns (p : Port) (h : Handle) (s : State) : Turns s (fetchUnconfirmed p h s) :=
  ((Turn.same ((dropHead_sameDirectory s p).trans (setTarget_sameDirectory _ h.index p .fetched 0))).trans
    (closeIfSettled_turn none _ none h.index)).turns

theorem fetchEffect_turns (p : Port) (s : State) : EffectTurns s (fetchEffect p s) := by
  unfold fetchEffect
  split
  · exact .ok _ (.refl s)
  · split
    · exact .error s _
    · refine .ok _ ?_
      split
      · exact (fetchConfirmed_sameDirectory p _ s).turns
      · exact fetchUnconfirmed_turns p _ s

theorem readEffect_turns (p : Port) (index generation offset count : Byte) (s : State) :
    EffectTurns s (readEffect p index generation offset count s) := by
  unfold readEffect
  split
  · exact .error s _
  · exact .ok _ (.refl s)

theorem answerEffect_turns (p : Port) (index generation : Byte) {effect : Handle → State → State}
    (h : ∀ k, Turns s (effect k s)) : EffectTurns s (answerEffect p index generation effect s) := by
  unfold answerEffect
  split
  · exact .ok _ (.refl s)
  · exact .ok _ (h _)

theorem ackEffect_turns (p : Port) (code : Byte) (h : Handle) (s : State) : Turns s (ackEffect p code h s) :=
  ((Turn.same (answer_sameDirectory p h .acked code s)).trans (closeIfSettled_turn none _ none _)).turns

theorem nackEffect_turns (p : Port) (code : Byte) (h : Handle) (s : State) : Turns s (nackEffect p code h s) := by
  refine ((Turn.same ((answer_sameDirectory p h .refused code s).trans ?_)).trans
    (closeIfSettled_turn none _ none _)).turns
  split
  · exact stopMessage_sameDirectory _ _
  · exact .refl _

theorem takeEffect_turns (p : Port) (s : State) : EffectTurns s (takeEffect p s) := by
  unfold takeEffect
  split
  · exact .ok _ (.refl s)
  · exact .ok _ (dropDone_sameDirectory s p _).turns

theorem execSend_turns (p : Port) (g tag flags len dl : Byte) (s : State) :
    OnNext (execSend p g tag flags len dl s) (Turns s) := by
  refine takeCommand_turns p _ fun t reply ht => ?_
  obtain ⟨u, hu, rfl⟩ := execSend_effect ht
  exact (EffectTurns.judged (fun hpass => sendEffect_turns hpass) _ _ hu).same (modPfe_sameDirectory u p _)

theorem execTickTaking_turns (s : State) : OnNext (execTickTaking s) (Turns s) := by
  unfold execTickTaking
  split
  · have hcount := (setTickCount_sameDirectory s (Nat.zero_le 255)).trans (lowerRemaining_sameDirectory _ s.tickCount)
    exact onNext_next ((hcount.trans (setArbiter_sameDirectory _ _ _)).trans (endTick_sameDirectory _)).turns
  · exact onNext_next (.refl s)

theorem execRecordExpiry_turns (r : RecordIndex) (s : State) : OnNext (execRecordExpiry r s) (Turns s) := by
  unfold execRecordExpiry
  split
  · exact onNext_next (((Turn.same (expireTargets_sameDirectory s r)).trans
      (closeIfSettled_turn none _ none r)).turns.same (endTick_sameDirectory _))
  · exact onNext_next (.refl s)

theorem execPresenceReport_turns (p : Port) (s : State) : OnNext (execPresenceReport p s) (Turns s) := by
  unfold execPresenceReport
  split
  · have heffect := (modPfe_sameDirectory s p Pfe.takePresence).then (presenceEffect_turns p
      (s.pfe p).presence.lostSeen (s.pfe p).presence.level _)
    exact onNext_next ((heffect.same (setArbiter_sameDirectory _ _ _)).same (refresh_sameDirectory _))
  · exact onNext_next (.refl s)

theorem execTick_turns (prs : PortSet) (s : State) : OnNext (execTick prs s) (Turns s) :=
  onNext_next ((setTickCount_sameDirectory s (min_le_right _ Config.tickCountLimit)).trans
    (mapPfes_sameDirectory _ _)).turns

end Effects

/-- Every command but HUB_RESET makes turns of the directory. -/
theorem exec_turns (i : Instr) (hi : i ≠ .hubReset) (s : State) : OnNext (exec i s) (Turns s) := by
  cases i with dsimp only [exec]
  | hubReset => exact absurd rfl hi
  | tick prs => exact execTick_turns prs s
  | idleSelect p | select p _ | deselect p | byteCompletion p _ =>
    exact onNext_next (pfeEvent_sameDirectory p _ s).turns
  | unknownCommand p _ | commandPost p _ | nop p | status p | clearFault p | setMask p _ =>
    exact onNext_next (byteEventIf_sameDirectory p _ _ s).turns
  | attach p => exact takeOkAlone_turns p fun _ => attachEffect_turns s p
  | detach p => exact takeOkAlone_turns p fun _ => retire_turns s p (by decide)
  | clearNotices p choice => exact takeOkAlone_turns p fun _ => (clearNoticesEffect_sameDirectory p choice s).turns
  | openGroup p _ _ _ _ _ => exact takeOkAlone_turns p fun hpass => (Turn.opened hpass).turns
  | resize p _ _ => exact takeOkAlone_turns p fun hpass => (Turn.resized hpass).turns
  | close p g => exact takeOkAlone_turns p close_turns
  | join p g => exact takeOkAlone_turns p join_turns
  | leave p g => exact takeOkAlone_turns p leave_turns
  | enrol p g port => exact takeOkAlone_turns p enrol_turns
  | expel p g port => exact takeOkAlone_turns p expel_turns
  | groupInfo p _ | roster p | poolInfo p => exact takeCommand_turns p _ (.judged fun _ => .ok _ (.refl s))
  | send p g tag flags len dl => exact execSend_turns p g tag flags len dl s
  | fetch p => exact takeCommand_turns p _ (.judged fun _ => fetchEffect_turns p s)
  | read p index generation offset count =>
    exact takeCommand_turns p _ (.judged fun _ => readEffect_turns p index generation offset count s)
  | ack p index generation code =>
    exact takeCommand_turns p _
      (.judged fun _ => answerEffect_turns p index generation fun h => ackEffect_turns p code h s)
  | nack p index generation code =>
    exact takeCommand_turns p _
      (.judged fun _ => answerEffect_turns p index generation fun h => nackEffect_turns p code h s)
  | take p => exact takeCommand_turns p _ (.judged fun _ => takeEffect_turns p s)
  | tickTaking => exact execTickTaking_turns s
  | recordExpiry r => exact execRecordExpiry_turns r s
  | presenceReport p => exact execPresenceReport_turns p s
  | _ => -- RECALL, whose constructor has the name of a Mathlib command
    exact onNext_next ((byteEventIf_sameDirectory _ _ _ s).trans (noteUnderway_sameDirectory _ _ _ _)).turns

/-! ## Hub reset (R1) -/

theorem reset_message (r : RecordIndex) : State.reset.message r = none := by rw [State.message, reset_record]

theorem execHubReset_sameDirectory (s : State) : OnNext (execHubReset s) (SameDirectory State.reset) := by
  have hsame : SameDirectory State.reset ((State.reset.setPool s.pool).setPending s.pending) :=
    .of_eq (fun _ => rfl) (fun _ => rfl) (fun _ => rfl) rfl id
  exact onNext_next (hsame.trans (mapPfes_sameDirectory _ _))

theorem station_entryLaw : EntryLaw 0 Group.station :=
  ⟨fun _ => ⟨rfl, rfl, rfl, rfl, rfl, rfl⟩, nofun, nofun, fun _ h => absurd rfl h⟩

/-- Group 0 alone has a quota, and no message is in flight. -/
theorem quotaLaw_reset : QuotaLaw State.reset := by
  refine quotaLaw_iff.2 ⟨?_, by decide, fun g => ?_⟩
  · have hquota (g : GroupNo) : (State.reset.group g).quota = if g = 0 then 16 else 0 := by
      rw [reset_group]
      split <;> rfl
    simp only [hquota, Finset.sum_ite_eq', Finset.mem_univ, if_true]
    rfl
  · have hblocks : State.reset.blocksOf g = 0 := by
      rw [blocksOf_eq_sum]
      exact Finset.sum_eq_zero fun r _ => blocksAt_of_none (reset_message r) g
    have hflights : State.reset.flightsOf g = 0 := by
      rw [flightsOf_eq_sum]
      exact Finset.sum_eq_zero fun r _ => flightsAt_of_none (reset_message r) g
    refine ⟨?_, ?_, ?_, ?_⟩ <;> rw [reset_group]
    · rw [hblocks]; split <;> rfl
    · rw [hflights]; split <;> rfl
    · split <;> exact Nat.zero_le _
    · split
      · nofun
      · exact fun _ => rfl

theorem groupLaw_reset : GroupLaw State.reset := by
  refine groupLaw_iff.2 fun g => ?_
  rw [reset_group]
  split
  · rename_i h; exact h ▸ station_entryLaw
  · rename_i h; exact freed_entryLaw h

theorem boundsLaw_reset : BoundsLaw State.reset := by
  refine boundsLaw_iff.2 ⟨Nat.zero_le _, fun g => ?_, fun r m hm => ?_⟩
  · rw [reset_group]
    split
    · exact fun _ => ⟨by decide, by decide⟩
    · exact freed_deadlineLaw
  · cases (reset_message r).symm.trans hm

/-! ## The laws of the directory -/

/-- A law that holds after hub reset, and that turns of the directory keep, is kept by every step. -/
theorem step_keeps_of_turns {P : State → Prop} (hreset : P State.reset) (hturns : ∀ s t, Turns s t → P s → P t)
    {s : State} (hs : P s) : OnNext (step s) P := by
  unfold step
  cases s.pending with
  | nil => exact onNext_next hs
  | cons i rest =>
    intro t ht
    by_cases hi : i = .hubReset
    · subst hi
      exact hturns _ t (execHubReset_sameDirectory (s.setPending rest) t ht).turns hreset
    · exact hturns s t ((setPending_sameDirectory s rest).then (exec_turns i hi (s.setPending rest) t ht)) hs

/-- Settles O53: every charge stands with its record, and a group gives up its quota only with nothing in flight. -/
theorem everyStepKeepsQuotaLaw : Obligations.EveryStepKeepsQuotaLaw := fun _ hs =>
  step_keeps_of_turns quotaLaw_reset (fun _ _ ⟨_, hturn, _⟩ => hturn.quotaLaw) hs

/-- Settles O54: an entry is rewritten whole when its group is opened or becomes FREE, and its figures and those of a
message come from parameters that a check has bounded. -/
theorem everyStepKeepsGroupAndBoundsLaws : Obligations.EveryStepKeepsGroupAndBoundsLaws :=
  ⟨fun _ hs => step_keeps_of_turns groupLaw_reset (fun _ _ ⟨_, hturn, _⟩ => hturn.groupLaw) hs,
    fun _ hs => step_keeps_of_turns boundsLaw_reset (fun _ _ ⟨_, hturn, _⟩ => hturn.boundsLaw) hs⟩

/-- Settles O55: a place is given to ACTIVE ports alone, and ATTACH and a retirement move a port into group 0 and out of
every group together with its state. -/
theorem everyStepKeepsStationLaw : Obligations.EveryStepKeepsStationLaw := fun _ hs =>
  step_keeps_of_turns (stationed_iff.1 stationed_reset).1 (fun _ _ h => h.stationLaw) hs

/-- Settles O48: every table is empty, and group 0 alone is not FREE. -/
theorem hubLawHoldsAtReset : Obligations.HubLawHoldsAtReset := by
  obtain ⟨hcapacity, hurgent⟩ := queueLaws_reset
  obtain ⟨hstation, hinactive⟩ := stationed_iff.1 stationed_reset
  have hpfe (p : Port) : State.reset.pfe p = Pfe.reset := by simp [State.reset, State.pfe]
  have hsummary (p : Port) : (State.reset.port p).summary = summaryOf (State.reset.port p) := by
    rw [reset_port]; rfl
  refine ⟨hcapacity, hurgent, handleLaw_reset, poolLaw_reset, quotaLaw_reset, groupLaw_reset, boundsLaw_reset,
    hstation, windowLaw_iff.2 window_reset, hinactive, .inr hsummary, fun p => ?_, fun p => ?_, fun p => nofun, ?_⟩
  · rw [hpfe, reset_port]; rfl
  · rw [hpfe]
    exact frontLaw_iff.2 ⟨⟨Nat.zero_le 4, rfl, rfl⟩, ⟨rfl, rfl⟩, rfl, rfl, rfl⟩
  · exact ⟨.nil, nofun⟩

end Sys2Proof.Machine.Directory

namespace Sys2Proof.Machine.GroupCommands

open Laws MessagePool Sending Traffic Queues Receiving Answering Inactive Directory StatusAndNotices

/-! ## HUB_RESET (R1, R143) -/

/-- Settles O3: every table is built anew; the level of SELn and the pool's bytes alone are carried over. -/
theorem hubResetRestoresState : Obligations.HubResetRestoresState := by
  intro s
  have hgroup (g : GroupNo) : (((State.reset.setPool s.pool).setPending s.pending).mapPfes
      fun p f => { f with sel := (s.pfe p).sel }).group g = if g = 0 then Group.station else Group.freed := by
    rw [mapPfes_group]
    exact reset_group g
  refine ⟨_, rfl, (hgroup 0).trans (if_pos rfl), fun g hg => (hgroup g).trans (if_neg hg), ?_, fun p => ?_,
    fun r => ?_, ?_, fun a => ?_, ?_, ?_, ?_, ?_, fun p => ?_⟩
  · rw [mapPfes_reservedTotal]; rfl
  · rw [mapPfes_port, setPending_port, setPool_port, reset_port]; rfl
  · rw [mapPfes_record]
    exact reset_record r
  · rw [mapPfes_freeList]; rfl
  · rw [mapPfes_pool]; rfl
  · rw [mapPfes_tickCount]; rfl
  · rw [mapPfes_ringNext]; rfl
  · rw [mapPfes_underway]; rfl
  · rw [mapPfes_pending]; rfl
  · have hreset : ((State.reset.setPool s.pool).setPending s.pending).pfe p = Pfe.reset := by
      rw [setPending_pfe, setPool_pfe]
      simp [State.reset, State.pfe]
    rw [mapPfes_pfe, hreset]
    rfl

/-! ## The checks of the group commands (R7, R10, R11) -/

/-- Where no check of the statement fails, no check of the model does. -/
theorem passed_of_sameChecks {cs : List (Bool × ResultCode)} {ds : List (Bool × Byte)} (h : SameChecks cs ds)
    (hds : ∀ d ∈ ds, d.1 = false) : firstFail cs = none := by
  have hnone : firstRefusal ds = none := by
    rw [firstRefusal, List.find?_eq_none.2 fun d hd => Bool.eq_false_iff.1 (hds d hd), Option.map_none]
  rw [h.firstRefusal_eq] at hnone
  exact Option.map_eq_none_iff.1 hnone

theorem two_le_toNat {b : Byte} : 2 ≤ b.toNat ↔ b ≠ 0x00 ∧ b ≠ 0x01 := by
  simp only [ne_eq, ← BitVec.toNat_inj, BitVec.ofNat_eq_ofNat, BitVec.toNat_ofNat]
  omega

theorem senderRuleOf_isNone (b : Byte) : (senderRuleOf b).isNone = decide (2 ≤ b.toNat) := by
  rw [Bool.eq_iff_iff, decide_eq_true_iff, two_le_toNat, senderRuleOf]
  split_ifs with h0 h1
  · exact iff_of_false nofun fun h => h.1 h0
  · exact iff_of_false nofun fun h => h.2 h1
  · exact iff_of_true rfl ⟨h0, h1⟩

theorem joinRuleOf_isNone (b : Byte) : (joinRuleOf b).isNone = decide (2 ≤ b.toNat) := by
  rw [Bool.eq_iff_iff, decide_eq_true_iff, two_le_toNat, joinRuleOf]
  split_ifs with h0 h1
  · exact iff_of_false nofun fun h => h.1 h0
  · exact iff_of_false nofun fun h => h.2 h1
  · exact iff_of_true rfl ⟨h0, h1⟩

/-- A group number of the station group, where the number is one (R7). -/
theorem fixedGroup_eq {g : Byte} (h : badGroup g = false) : fixedGroup g = decide (g.toNat = 0) := by
  have hlt : g.toNat < 40 := by simpa [badGroup] using h
  rw [fixedGroup, beq_eq_decide, decide_eq_decide, Fin.ext_iff]
  exact iff_of_eq (congrArg (· = 0) (Nat.mod_eq_of_lt hlt))

theorem groupIs_eq (s : State) (g : Byte) (st : GroupState) :
    s.groupIs g st = decide ((s.group (groupNo g)).state = st) := beq_eq_decide _ _

theorem notAnchor_eq (s : State) (p : Port) (g : Byte) :
    s.notAnchor p g = decide ((s.group (groupNo g)).anchor ≠ some p) := by
  simp [State.notAnchor, bne, beq_eq_decide]

theorem badQuota_eq (q : Byte) : badQuota q = decide (q.toNat = 0 ∨ 112 < q.toNat) := by
  rw [badQuota, Config.quotaLimit, beq_eq_decide, Bool.decide_or]

/-- The checks that a group is named, that it is not group 0, and that it is not FREE. -/
theorem sameChecks_group {s : State} {g : Byte} {cs : List (Bool × ResultCode)} {ds : List (Bool × Byte)}
    (h : SameChecks cs ds) :
    SameChecks ((badGroup g, .badGroup) :: (fixedGroup g, .fixedGroup) :: (s.groupIs g .free, .groupFree) :: cs)
      ((decide (40 ≤ g.toNat), 0x03) :: (decide (g.toNat = 0), 0x07) ::
        (decide ((s.group (groupNo g)).state = .free), 0x04) :: ds) :=
  .cons rfl fun hgroup => .cons (fixedGroup_eq hgroup) fun _ => .cons (groupIs_eq s g .free) fun _ => h

section Checks

variable (s : State) (p : Port) (g x : Byte)

theorem openChecks_same (q sr jr dl : Byte) :
    SameChecks (openChecks p g q sr jr dl s)
      [ (decide ((s.port p).portState ≠ .active), 0x01),
        (decide (2 ≤ sr.toNat) || decide (2 ≤ jr.toNat) || decide (dl.toNat = 0) || decide (250 < dl.toNat) ||
          decide (q.toNat = 0) || decide (112 < q.toNat), 0x02),
        (decide (40 ≤ g.toNat), 0x03),
        (decide (g.toNat = 0), 0x07),
        (decide ((s.group (groupNo g)).state ≠ .free), 0x05),
        (decide (128 < s.reservedTotal + q.toNat), 0x0E) ] := by
  have hparams : ((senderRuleOf sr).isNone || (joinRuleOf jr).isNone || badDefaultDeadline dl || badQuota q) =
      (decide (2 ≤ sr.toNat) || decide (2 ≤ jr.toNat) || decide (dl.toNat = 0) || decide (250 < dl.toNat) ||
        decide (q.toNat = 0) || decide (112 < q.toNat)) := by
    rw [senderRuleOf_isNone, joinRuleOf_isNone, badQuota_eq, badDefaultDeadline, beq_eq_decide, Config.deadlineLimit,
      Bool.decide_or, ← Bool.or_assoc, ← Bool.or_assoc]
  exact .cons (notActive_eq s p) fun _ => .cons hparams fun _ => .cons rfl fun hgroup =>
    .cons (fixedGroup_eq hgroup) fun _ => .cons (by rw [groupIs_eq, decide_not]) fun _ => .cons rfl fun _ => trivial

theorem closeChecks_same :
    SameChecks (closeChecks p g s)
      [ (decide ((s.port p).portState ≠ .active), 0x01),
        (decide (40 ≤ g.toNat), 0x03),
        (decide (g.toNat = 0), 0x07),
        (decide ((s.group (groupNo g)).state = .free), 0x04),
        (decide ((s.group (groupNo g)).state = .closing), 0x06),
        (decide ((s.group (groupNo g)).anchor ≠ some p), 0x08) ] :=
  .cons (notActive_eq s p) fun _ => sameChecks_group (.cons (groupIs_eq s g .closing) fun _ =>
    .cons (notAnchor_eq s p g) fun _ => trivial)

theorem joinChecks_same :
    SameChecks (joinChecks p g s)
      [ (decide ((s.port p).portState ≠ .active), 0x01),
        (decide (40 ≤ g.toNat), 0x03),
        (decide (g.toNat = 0), 0x07),
        (decide ((s.group (groupNo g)).state = .free), 0x04),
        (decide ((s.group (groupNo g)).state = .closing), 0x06),
        (PortSet.has (s.group (groupNo g)).members p, 0x0A),
        (decide ((s.group (groupNo g)).joinRule = some .byAnchor ∧ (s.group (groupNo g)).anchor ≠ some p), 0x0D) ] :=
  .cons (notActive_eq s p) fun _ => sameChecks_group (.cons (groupIs_eq s g .closing) fun _ => .cons rfl fun _ =>
    .cons (by rw [notAnchor_eq, beq_eq_decide, Bool.decide_and]) fun _ => trivial)

theorem leaveChecks_same :
    SameChecks (leaveChecks p g s)
      [ (decide ((s.port p).portState ≠ .active), 0x01),
        (decide (40 ≤ g.toNat), 0x03),
        (decide (g.toNat = 0), 0x07),
        (decide ((s.group (groupNo g)).state = .free), 0x04),
        (!PortSet.has (s.group (groupNo g)).members p, 0x09) ] :=
  .cons (notActive_eq s p) fun _ => sameChecks_group (.cons rfl fun _ => trivial)

theorem enrolChecks_same :
    SameChecks (enrolChecks p g x s)
      [ (decide ((s.port p).portState ≠ .active), 0x01),
        (decide (6 ≤ x.toNat), 0x02),
        (decide (40 ≤ g.toNat), 0x03),
        (decide (g.toNat = 0), 0x07),
        (decide ((s.group (groupNo g)).state = .free), 0x04),
        (decide ((s.group (groupNo g)).state = .closing), 0x06),
        (decide ((s.group (groupNo g)).anchor ≠ some p), 0x08),
        (decide ((s.port (portNo x)).portState ≠ .active), 0x0B),
        (PortSet.has (s.group (groupNo g)).members (portNo x), 0x0A) ] :=
  .cons (notActive_eq s p) fun _ => .cons rfl fun _ => sameChecks_group (.cons (groupIs_eq s g .closing) fun _ =>
    .cons (notAnchor_eq s p g) fun _ => .cons (notActive_eq s (portNo x)) fun _ => .cons rfl fun _ => trivial)

theorem expelChecks_same :
    SameChecks (expelChecks p g x s)
      [ (decide ((s.port p).portState ≠ .active), 0x01),
        (decide (6 ≤ x.toNat), 0x02),
        (decide (40 ≤ g.toNat), 0x03),
        (decide (g.toNat = 0), 0x07),
        (decide ((s.group (groupNo g)).state = .free), 0x04),
        (decide ((s.group (groupNo g)).anchor ≠ some p), 0x08),
        (!PortSet.has (s.group (groupNo g)).members (portNo x), 0x09) ] :=
  .cons (notActive_eq s p) fun _ => .cons rfl fun _ => sameChecks_group (.cons (notAnchor_eq s p g) fun _ =>
    .cons rfl fun _ => trivial)

theorem resizeChecks_same :
    SameChecks (resizeChecks p g x s)
      [ (decide ((s.port p).portState ≠ .active), 0x01),
        (decide (x.toNat = 0 ∨ 112 < x.toNat), 0x02),
        (decide (40 ≤ g.toNat), 0x03),
        (decide (g.toNat = 0), 0x07),
        (decide ((s.group (groupNo g)).state = .free), 0x04),
        (decide ((s.group (groupNo g)).state = .closing), 0x06),
        (decide ((s.group (groupNo g)).anchor ≠ some p), 0x08),
        (decide (x.toNat < (s.group (groupNo g)).used), 0x10),
        (decide ((s.group (groupNo g)).quota < x.toNat ∧
          128 < s.reservedTotal + (x.toNat - (s.group (groupNo g)).quota)), 0x0E) ] :=
  .cons (notActive_eq s p) fun _ => .cons (badQuota_eq x) fun _ => sameChecks_group (.cons (groupIs_eq s g .closing) fun _ =>
    .cons (notAnchor_eq s p g) fun _ => .cons rfl fun _ => .cons (Bool.decide_and _ _).symm fun _ => trivial)

theorem attachChecks_same :
    SameChecks (attachChecks p s)
      [ (decide ((s.port p).portState = .active), 0x16), (decide ((s.port p).portState = .absent), 0x01) ] :=
  .cons (beq_eq_decide _ _) fun _ => .cons (beq_eq_decide _ _) fun _ => trivial

theorem notAttached_same :
    SameChecks [(s.notActive p, .notAttached)] [(decide ((s.port p).portState ≠ .active), 0x01)] :=
  .cons (notActive_eq s p) fun _ => trivial

theorem groupInfoChecks_same :
    SameChecks (groupInfoChecks p x s)
      [ (decide ((s.port p).portState ≠ .active), 0x01), (decide (40 ≤ x.toNat), 0x03) ] :=
  .cons (notActive_eq s p) fun _ => .cons rfl fun _ => trivial

end Checks

/-- The command `c` is judged by `checks`, so it is refused by them in their order (R171). -/
theorem refuses_of_exec {c : State → Host.Outcome State Fault Refusal} {p : Port} {req : Request}
    {checks : State → List (Bool × ResultCode)} {effect : State → CoreResult}
    (hc : c = takeCommand p req fun s => judged s (checks s) (effect s)) {s : State} {stated : List (Bool × Byte)}
    (hsame : SameChecks (checks s) stated) (htakes : s.takes p req = true) :
    RefusesInOrder (c s) (s.pfe p) p s stated := by
  rw [hc]
  exact takeCommand_refuses htakes hsame

/-- Settles O22: the checks of the model are those of the statement, in their order. -/
theorem openAndCloseRefuseInOrder : Obligations.OpenAndCloseRefuseInOrder := fun s p g q sr jr dl =>
  ⟨refuses_of_exec (c := execOpen p g q sr jr dl) rfl (openChecks_same s p g q sr jr dl),
    refuses_of_exec (c := execClose p g) rfl (closeChecks_same s p g)⟩

/-- Settles O23: the checks of the model are those of the statement, in their order. -/
theorem membershipCommandsRefuseInOrder : Obligations.MembershipCommandsRefuseInOrder := fun s p g x =>
  ⟨refuses_of_exec (c := execJoin p g) rfl (joinChecks_same s p g),
    refuses_of_exec (c := execLeave p g) rfl (leaveChecks_same s p g),
    refuses_of_exec (c := execEnrol p g x) rfl (enrolChecks_same s p g x),
    refuses_of_exec (c := execExpel p g x) rfl (expelChecks_same s p g x),
    refuses_of_exec (c := execResize p g x) rfl (resizeChecks_same s p g x)⟩

/-- Settles O24: the checks of the model are those of the statement, in their order. -/
theorem portCommandsRefuseInOrder : Obligations.PortCommandsRefuseInOrder := fun s p x =>
  ⟨refuses_of_exec (c := execAttach p) rfl (attachChecks_same s p),
    refuses_of_exec (c := execDetach p) rfl (notAttached_same s p),
    refuses_of_exec (c := execGroupInfo p x) rfl (groupInfoChecks_same s p x),
    refuses_of_exec (c := execRoster p) rfl (notAttached_same s p),
    refuses_of_exec (c := execPoolInfo p) rfl (notAttached_same s p)⟩

end Sys2Proof.Machine.GroupCommands

namespace Sys2Proof.Machine.GroupCommands

open Laws MessagePool Sending Traffic Queues Receiving Answering Inactive Directory StatusAndNotices

/-! ## Commands that pass their checks (R150, R151) -/

/-- The command `c` is judged by `checks` and passes them, so it has its effect and its reply. -/
theorem passes_of_exec {c : State → Host.Outcome State Fault Refusal} {p : Port} {req : Request}
    {checks : State → List (Bool × ResultCode)} {effect : State → CoreResult}
    (hc : c = takeCommand p req fun s => judged s (checks s) (effect s)) {s t : State} {reply : List Byte}
    (htakes : s.takes p req = true) (hpass : firstFail (checks s) = none) (heffect : effect s = .ok (t, reply)) :
    c s = .next (afterTaking p t reply) := by
  rw [hc]
  exact takeCommand_passes htakes hpass heffect

theorem groupNo_val {g : Byte} (hg : g.toNat < 40) : (groupNo g).val = g.toNat := Nat.mod_eq_of_lt hg

theorem portNo_of_val {port : Byte} {q : Port} (h : port.toNat = q.val) : portNo port = q :=
  Fin.ext ((congrArg (· % 6) h).trans (Nat.mod_eq_of_lt q.isLt))

/-! ### ATTACH (R6, R130) -/

theorem attachEffect_port (p q : Port) (s : State) :
    (attachEffect p s).port q = if p = q then { s.port q with portState := .active } else s.port q := by
  rw [attachEffect, State.addMember, modGroup_port, State.setPortState, modPort_port]
  split
  · rename_i h; rw [h]
  · rfl

theorem attachEffect_group (p : Port) (s : State) (g : GroupNo) :
    (attachEffect p s).group g =
      if 0 = g then { s.group g with members := PortSet.insert (s.group g).members p } else s.group g := by
  rw [attachEffect, State.addMember, modGroup_group, State.setPortState, modPort_group, modPort_group]
  split
  · rename_i h; rw [h]
  · rfl

/-- Settles O27: the effect changes the port's state and the member set of group 0 alone. -/
theorem attachMakesPortActive : Obligations.AttachMakesPortActive := by
  intro s p htakes hdetached
  have hpass : firstFail (attachChecks p s) = none :=
    passed_of_sameChecks (attachChecks_same s p) (by simp [hdetached])
  refine ⟨_, passes_of_exec (c := execAttach p) rfl htakes hpass rfl,
    answeredFrom_afterTaking rfl (fun _ _ => rfl) rfl rfl, ?_, fun q hq => ?_, ?_, fun q => ?_, fun g hg => ?_,
    fun r => ?_, ?_, ?_, fun a => ?_⟩
  · rw [afterTaking_port, attachEffect_port, if_pos rfl]
  · rw [SamePort, afterTaking_port, attachEffect_port, if_neg hq.symm]
  · rw [afterTaking_group, attachEffect_group, if_pos rfl]
  · rw [afterTaking_group, attachEffect_group, if_pos rfl, has_insert]
  · rw [afterTaking_group, attachEffect_group, if_neg hg.symm]
  · exact afterTaking_record p _ _ r
  · exact afterTaking_reservedTotal p _ _
  · exact afterTaking_freeList p _ _
  · rw [afterTaking_pool]; rfl

/-! ### OPEN (R11, R12) -/

theorem senderRuleOf_eq {b : Byte} (h : b.toNat < 2) :
    senderRuleOf b = some (if b = 0x00 then .anyMember else .anchorOnly) := by
  have hnone : senderRuleOf b ≠ none := fun hnone => by
    have := senderRuleOf_isNone b
    rw [hnone, decide_eq_false (Nat.not_le.2 h)] at this
    cases this
  unfold senderRuleOf at hnone ⊢
  split_ifs with h0 h1
  · rfl
  · rfl
  · exact absurd (by rw [if_neg h0, if_neg h1]) hnone

theorem joinRuleOf_eq {b : Byte} (h : b.toNat < 2) :
    joinRuleOf b = some (if b = 0x00 then .freeJoin else .byAnchor) := by
  have hnone : joinRuleOf b ≠ none := fun hnone => by
    have := joinRuleOf_isNone b
    rw [hnone, decide_eq_false (Nat.not_le.2 h)] at this
    cases this
  unfold joinRuleOf at hnone ⊢
  split_ifs with h0 h1
  · rfl
  · rfl
  · exact absurd (by rw [if_neg h0, if_neg h1]) hnone

/-- Settles O31: no check of R11 fails, and the effect writes the entry whole but for its counts. -/
theorem openSetsGroupEntry : Obligations.OpenSetsGroupEntry := by
  intro s p g q sr jr dl htakes hactive hsr hjr hdl hdl' hq hq' hg hg' hfree hroom
  have hpass : firstFail (openChecks p g q sr jr dl s) = none := by
    refine passed_of_sameChecks (openChecks_same s p g q sr jr dl) ?_
    simp only [List.forall_mem_cons, hactive, hfree, Bool.or_eq_false_iff, decide_eq_false_iff_not]
    exact ⟨by simp, by omega, by omega, by omega, by simp, by omega, by simp⟩
  obtain ⟨hanswered, hbytes⟩ := coreOnly_answered (openEffect_coreOnly p g q sr jr dl s) p [0x00]
  have hgroup (k : GroupNo) (hk : k ≠ groupNo g) : (openEffect p g q sr jr dl s).group k = s.group k := by
    rw [openEffect, modGroup_group_ne _ _ _ _ hk.symm, setReserved_group]
  have hentry : (openEffect p g q sr jr dl s).group (groupNo g) =
      { state := .opened, anchor := some p, members := PortSet.insert PortSet.none p, senderRule := senderRuleOf sr,
        joinRule := joinRuleOf jr, quota := q.toNat, used := (s.group (groupNo g)).used,
        inFlight := (s.group (groupNo g)).inFlight, defaultDeadline := dl.toNat } := by
    rw [openEffect, modGroup_group_same, setReserved_group]
  refine ⟨_, passes_of_exec (c := execOpen p g q sr jr dl) rfl htakes hpass rfl, hanswered, ?_, fun k => ?_, ?_,
    fun k hk => ?_, fun k => ?_, fun r => ?_, ?_, hbytes⟩
  · rw [afterTaking_group, hentry, senderRuleOf_eq hsr, joinRuleOf_eq hjr]
  · rw [afterTaking_group, hentry, has_insert, has_none, Bool.false_or]
  · rw [afterTaking_reservedTotal]; rfl
  · rw [afterTaking_group, hgroup k hk]
  · rw [SamePort, afterTaking_port]; rfl
  · exact afterTaking_record p _ _ r
  · exact afterTaking_freeList p _ _

/-! ### CLOSE (R4, R5, R14) -/

/-- Settles O32: the closing anchor hears of neither transition, and every other member of the first. -/
theorem closeEntersClosing : Obligations.CloseEntersClosing := by
  intro s p g htakes hactive hg hg' hopen hanchor
  have hpass : firstFail (closeChecks p g s) = none := by
    refine passed_of_sameChecks (closeChecks_same s p g) ?_
    simp only [List.forall_mem_cons, hactive, hopen, hanchor, decide_eq_false_iff_not]
    exact ⟨by simp, by omega, by omega, by simp, by simp, by simp, by simp⟩
  obtain ⟨hanswered, hbytes⟩ := coreOnly_answered (enterClosing_coreOnly s (groupNo g) p (some p)) p [0x00]
  refine ⟨_, passes_of_exec (c := execClose p g) rfl htakes hpass rfl, hanswered, fun hflight => ⟨?_, ?_⟩,
    fun hlast => ⟨?_, ?_⟩, fun k => ?_, fun k hk => ?_, fun r => ?_, ?_, hbytes⟩
  · rw [afterTaking_group, enterClosing_group, if_neg (not_not_intro rfl),
      if_neg (Nat.one_le_iff_ne_zero.1 hflight)]
  · rw [afterTaking_reservedTotal, enterClosing_reservedTotal, if_neg (Nat.one_le_iff_ne_zero.1 hflight)]
  · rw [afterTaking_group, enterClosing_group, if_neg (not_not_intro rfl), if_pos hlast]
    rfl
  · rw [afterTaking_reservedTotal, enterClosing_reservedTotal, if_pos hlast]
  · have htold : (decide (k ≠ p) || (decide ((s.group (groupNo g)).inFlight = 0) && decide (some p ≠ some k))) =
        decide (k ≠ p) := by
      by_cases h : k = p <;> simp [h]
    rw [afterTaking_port, enterClosing_port, htold]
    rfl
  · rw [afterTaking_group, enterClosing_group, if_pos hk]
  · rw [afterTaking_record, (enterClosing_sameRecords s (groupNo g) p (some p)).record]
  · rw [afterTaking_freeList, (enterClosing_sameRecords s (groupNo g) p (some p)).freeList]

/-! ### JOIN and ENROL (R16, R19) -/

/-- The tables once a port is made member and told of it or not. -/
theorem addMember_notified {s t : State} {g : GroupNo} {q : Port} {b : Bool}
    (hgroup : ∀ k, t.group k = (s.addMember g q).group k)
    (hport : ∀ k, t.port k = if q = k then told b (s.port k) else s.port k) (hrecord : ∀ r, t.record r = s.record r)
    (hreserved : t.reservedTotal = s.reservedTotal) (hfree : t.freeList = s.freeList) (p : Port) :
    let u := afterTaking p t [0x00]
    u.group g = { s.group g with members := (u.group g).members } ∧
      (∀ k, PortSet.has (u.group g).members k = (PortSet.has (s.group g).members k || decide (k = q))) ∧
      u.port q = { s.port q with roster := (s.port q).roster || b, summary := (u.port q).summary } ∧
      (∀ k, k ≠ q → SamePort s u k) ∧ (∀ k, k ≠ g → u.group k = s.group k) ∧ (∀ r, u.record r = s.record r) ∧
      u.reservedTotal = s.reservedTotal ∧ u.freeList = s.freeList := by
  have hentry : t.group g = { s.group g with members := PortSet.insert (s.group g).members q } := by
    rw [hgroup, State.addMember, modGroup_group_same]
  refine ⟨?_, fun k => ?_, ?_, fun k hk => ?_, fun k hk => ?_, fun r => ?_, ?_, ?_⟩
  · rw [afterTaking_group, hentry]
  · rw [afterTaking_group, hentry, has_insert]
  · rw [afterTaking_port, hport, if_pos rfl]; rfl
  · rw [SamePort, afterTaking_port, hport, if_neg hk.symm]
  · rw [afterTaking_group, hgroup, State.addMember, modGroup_group_ne _ _ _ _ hk.symm]
  · rw [afterTaking_record, hrecord]
  · rw [afterTaking_reservedTotal, hreserved]
  · rw [afterTaking_freeList, hfree]

theorem notifyPort_port (s : State) (p q k : Port) :
    (s.notifyPort p q).port k = if q = k then told (decide (q ≠ p)) (s.port k) else s.port k := by
  unfold State.notifyPort
  by_cases hqp : q = p
  · rw [if_pos hqp, decide_eq_false (not_not_intro hqp), told_false, ite_self]
  · rw [if_neg hqp, decide_eq_true hqp, modPort_port]
    split
    · rename_i h; subst h
      rw [told, Bool.or_true]
    · rfl

theorem notifyPort_stores (s : State) (p q : Port) : SameStores s (s.notifyPort p q) := by
  unfold State.notifyPort
  split <;> exact ⟨fun _ => rfl, fun _ => rfl, rfl, rfl, fun _ => rfl⟩

theorem addMember_coreOnly (s : State) (g : GroupNo) (p : Port) : CoreOnly s (s.addMember g p) :=
  CoreOnly.modGroup s g _

/-- Settles O33: both effects add the member; that of ENROL tells it, unless it enrols itself. -/
theorem joinAndEnrolAddMember : Obligations.JoinAndEnrolAddMember := by
  intro s p q g port hactive hg hg' hopen hmember
  refine ⟨fun hqp htakes hrule => ?_, fun hnamed htakes hanchor hnamedActive => ?_⟩
  · subst hqp
    have hpass : firstFail (joinChecks q g s) = none := by
      refine passed_of_sameChecks (joinChecks_same s q g) ?_
      simp only [List.forall_mem_cons, hactive, hopen, hmember, decide_eq_false_iff_not]
      exact ⟨by simp, by omega, by omega, by simp, by simp, trivial, fun h => h.2 (hrule h.1), by simp⟩
    obtain ⟨hanswered, hbytes⟩ := coreOnly_answered (addMember_coreOnly s (groupNo g) q) q [0x00]
    obtain ⟨h1, h2, h3, h4, h5, h6, h7, h8⟩ := addMember_notified (s := s) (t := s.addMember (groupNo g) q) (q := q)
      (b := false) (fun _ => rfl) (fun k => by rw [told_false, ite_self]; rfl) (fun _ => rfl) rfl rfl q
    exact ⟨_, passes_of_exec (c := execJoin q g) rfl htakes hpass rfl, hanswered, h1, h2, h3, h4, h5, h6, h7, h8, hbytes⟩
  · have hno := portNo_of_val hnamed
    have hpass : firstFail (enrolChecks p g port s) = none := by
      refine passed_of_sameChecks (enrolChecks_same s p g port) ?_
      simp only [List.forall_mem_cons, hno, hactive, hopen, hmember, hanchor, hnamedActive, decide_eq_false_iff_not]
      exact ⟨by simp, by omega, by omega, by omega, by simp, by simp, by simp, by simp, trivial, by simp⟩
    obtain ⟨hanswered, hbytes⟩ := coreOnly_answered
      ((addMember_coreOnly s (groupNo g) q).trans (notifyPort_coreOnly _ p q)) p [0x00]
    obtain ⟨hgroup, hrecord, hreserved, hfree, -⟩ := notifyPort_stores (s.addMember (groupNo g) q) p q
    obtain ⟨h1, h2, h3, h4, h5, h6, h7, h8⟩ := addMember_notified hgroup (fun k => notifyPort_port _ p q k) hrecord
      hreserved hfree p
    have hexec := passes_of_exec (c := execEnrol p g port) rfl htakes hpass rfl
    rw [hno] at hexec
    exact ⟨_, hexec, hanswered, h1, h2, h3, h4, h5, h6, h7, h8, hbytes⟩

/-! ### RESIZE (R2, R23) -/

/-- Settles O35: the effect writes the quota and the reserved total alone. -/
theorem resizeSetsQuota : Obligations.ResizeSetsQuota := by
  intro s p g q htakes hactive hq hq' hg hg' hopen hanchor hused hquota hroom
  have hpass : firstFail (resizeChecks p g q s) = none := by
    refine passed_of_sameChecks (resizeChecks_same s p g q) ?_
    simp only [List.forall_mem_cons, hactive, hopen, hanchor, decide_eq_false_iff_not]
    exact ⟨by simp, by omega, by omega, by omega, by simp, by simp, by simp, by omega, by omega, by simp⟩
  obtain ⟨hanswered, hbytes⟩ := coreOnly_answered (resizeEffect_coreOnly g q s) p [0x00]
  refine ⟨_, passes_of_exec (c := execResize p g q) rfl htakes hpass rfl, hanswered, ?_, ?_, fun k hk => ?_,
    fun k => ?_, fun r => ?_, ?_, hbytes⟩
  · rw [afterTaking_group, resizeEffect, modGroup_group_same, setReserved_group]
  · have hreserved : (resizeEffect g q s).reservedTotal =
        s.reservedTotal + q.toNat - (s.group (groupNo g)).quota := rfl
    rw [afterTaking_reservedTotal, hreserved]
    omega
  · rw [afterTaking_group, resizeEffect, modGroup_group_ne _ _ _ _ hk.symm, setReserved_group]
  · rw [SamePort, afterTaking_port]; rfl
  · exact afterTaking_record p _ _ r
  · exact afterTaking_freeList p _ _

/-! ### GROUP INFO, ROSTER and POOL INFO (R26, R27, R38) -/

/-- The role byte of a port in a group, where it is member or anchor (R175). -/
theorem roleOf_eq (p : Port) (e : Group) :
    roleOf p e =
      if (PortSet.has e.members p || decide (e.anchor = some p)) = true then
        some ((if PortSet.has e.members p then (0x01 : Byte) else 0x00) +
          (if e.anchor = some p then 0x02 else 0x00))
      else none := by
  rw [roleOf, beq_eq_decide]
  cases PortSet.has e.members p <;> by_cases h : e.anchor = some p <;> simp [h]

theorem rosterEntries_eq (p : Port) (s : State) :
    rosterEntries p s =
      (allGroups.filter fun g => PortSet.has (s.group g).members p || decide ((s.group g).anchor = some p)).map
        fun g => (g, (if PortSet.has (s.group g).members p then (0x01 : Byte) else 0x00) +
          (if (s.group g).anchor = some p then 0x02 else 0x00)) := by
  rw [rosterEntries, ← List.filterMap_eq_map, List.filterMap_filter]
  refine List.filterMap_congr fun g _ => ?_
  rw [roleOf_eq]
  split <;> rfl

theorem groupInfoReply_eq (e : Group) :
    groupInfoReply e =
      [ 0x00,
        match e.state with | .free => 0x00 | .opened => 0x01 | .closing => 0x02,
        match e.anchor with | none => 0xFF | some q => byteOf q.val,
        match e.senderRule with | none => 0xFF | some .anyMember => 0x00 | some .anchorOnly => 0x01,
        match e.joinRule with | none => 0xFF | some .freeJoin => 0x00 | some .byAnchor => 0x01,
        byteOf e.quota, byteOf e.used, byteOf e.inFlight, byteOf e.defaultDeadline,
        byteOf (allPorts.filter fun q => PortSet.has e.members q).length ] ++
        (allPorts.filter fun q => PortSet.has e.members q).map fun q => byteOf q.val := by
  have hanchor : anchorByte e.anchor = match e.anchor with | none => 0xFF | some q => byteOf q.val := by
    cases e.anchor <;> rfl
  have hsender : senderRuleByte e.senderRule =
      match e.senderRule with | none => 0xFF | some .anyMember => 0x00 | some .anchorOnly => 0x01 := by
    rcases e.senderRule with _ | _ | _ <;> rfl
  have hjoin : joinRuleByte e.joinRule =
      match e.joinRule with | none => 0xFF | some .freeJoin => 0x00 | some .byAnchor => 0x01 := by
    rcases e.joinRule with _ | _ | _ <;> rfl
  rw [groupInfoReply, hanchor, hsender, hjoin]
  rfl

/-- Settles O36: the effect is the reply alone. -/
theorem reportsReadTables : Obligations.ReportsReadTables := by
  intro s p hactive
  have hattached : firstFail [(s.notActive p, ResultCode.notAttached)] = none :=
    passed_of_sameChecks (notAttached_same s p) (by simp [hactive])
  have hsame (reply : List Byte) : Answered p reply s (afterTaking p s reply) ∧ SameTables s (afterTaking p s reply) :=
    ⟨(coreOnly_answered (.refl s) p reply).1, sameTables_afterTaking p reply (fun _ => rfl) (sameTables_refl s).2⟩
  refine ⟨fun g htakes hg => ?_, fun htakes => ?_, fun htakes => ?_⟩
  · have hpass : firstFail (groupInfoChecks p g s) = none := by
      refine passed_of_sameChecks (groupInfoChecks_same s p g) ?_
      simp only [List.forall_mem_cons, hactive, decide_eq_false_iff_not]
      exact ⟨by simp, by omega, by simp⟩
    refine ⟨_, passes_of_exec (c := execGroupInfo p g) rfl htakes hpass rfl, ?_⟩
    have hreply := hsame (groupInfoReply (s.group (groupNo g)))
    rw [groupInfoReply_eq] at hreply ⊢
    exact hreply
  · refine ⟨_, passes_of_exec (c := execRoster p) rfl htakes hattached rfl, ?_⟩
    have hreply := hsame (rosterReply p s)
    rw [rosterReply, rosterEntries_eq, List.length_map, List.flatMap_map] at hreply ⊢
    exact hreply
  · exact ⟨_, passes_of_exec (c := execPoolInfo p) rfl htakes hattached rfl, hsame _⟩

end Sys2Proof.Machine.GroupCommands

namespace Sys2Proof.Machine.Departing

open Laws MessagePool Sending Traffic Queues Handles Receiving Expiry Answering SendLists Inactive Directory GroupCommands

/-! ## Groups on their way from OPEN over CLOSING to FREE, and who hears of it (R4, R5) -/

/-- The place of a group's state on the way from OPEN to FREE. -/
def rank : GroupState → Nat
  | .opened => 0
  | .closing => 1
  | .free => 2

theorem rank_inj {a b : GroupState} (h : rank a = rank b) : a = b := by
  cases a <;> cases b <;> simp_all [rank]

/-- Port `k` is, in `s`, a member of a group that has another state in `t`. -/
def hears (k : Port) (s t : State) : Bool :=
  allGroups.any fun g => PortSet.has (s.group g).members k && decide ((s.group g).state ≠ (t.group g).state)

theorem hears_iff {k : Port} {s t : State} :
    hears k s t = true ↔ ∃ g, PortSet.has (s.group g).members k = true ∧ (s.group g).state ≠ (t.group g).state := by
  simp [hears, allGroups]

/-- The groups go on their way from `s` to `t` with port `k` told of each change of a group that it is a member of, and
its missed latch as it was. -/
structure Onward (k : Port) (s t : State) : Prop where
  rank   : ∀ g, rank (s.group g).state ≤ rank (t.group g).state
  member : ∀ g, (t.group g).state ≠ .free → PortSet.has (t.group g).members k = PortSet.has (s.group g).members k
  roster : (t.port k).roster = ((s.port k).roster || hears k s t)
  missed : (t.port k).missed = (s.port k).missed

/-- Where one group at most changes its state, its members alone are told. -/
theorem hears_eq {k : Port} {s t : State} (g : GroupNo) (h : ∀ j, j ≠ g → (t.group j).state = (s.group j).state) :
    hears k s t = (PortSet.has (s.group g).members k && decide ((s.group g).state ≠ (t.group g).state)) := by
  rw [Bool.eq_iff_iff, hears_iff, Bool.and_eq_true, decide_eq_true_iff]
  refine ⟨fun ⟨j, hmember, hstate⟩ => ?_, fun hg => ⟨g, hg⟩⟩
  obtain rfl : j = g := by
    by_contra hj
    exact hstate (h j hj).symm
  exact ⟨hmember, hstate⟩

theorem Onward.of_same {k : Port} {s t : State} (hstate : ∀ g, (t.group g).state = (s.group g).state)
    (hmember : ∀ g, PortSet.has (t.group g).members k = PortSet.has (s.group g).members k)
    (hroster : (t.port k).roster = (s.port k).roster) (hmissed : (t.port k).missed = (s.port k).missed) :
    Onward k s t := by
  refine ⟨fun g => by rw [hstate], fun g _ => hmember g, ?_, hmissed⟩
  rw [hears_eq 0 fun j _ => hstate j, hstate, hroster]
  simp

theorem Onward.refl (k : Port) (s : State) : Onward k s s := .of_same (fun _ => rfl) (fun _ => rfl) rfl rfl

/-- A FREE group stays FREE. -/
theorem Onward.free {k : Port} {s t : State} (h : Onward k s t) {g : GroupNo} (hfree : (s.group g).state = .free) :
    (t.group g).state = .free := by
  have hrank := h.rank g
  have hlast : Departing.rank (t.group g).state ≤ 2 := by cases (t.group g).state <;> decide
  rw [hfree] at hrank
  exact rank_inj (le_antisymm hlast hrank)

/-- A group that is told of twice has changed its state, and one that has changed it is told of at one of the two. -/
theorem Onward.hears_trans {k : Port} {s t u : State} (h : Onward k s t) (h' : Onward k t u) :
    hears k s u = (hears k s t || hears k t u) := by
  rw [Bool.eq_iff_iff, Bool.or_eq_true, hears_iff, hears_iff, hears_iff]
  constructor
  · rintro ⟨g, hmember, hstate⟩
    by_cases hst : (s.group g).state = (t.group g).state
    · have hnotFree : (t.group g).state ≠ .free := fun hfree =>
        hstate (hst.trans (hfree.trans (h'.free hfree).symm))
      exact .inr ⟨g, (h.member g hnotFree).trans hmember, hst ▸ hstate⟩
    · exact .inl ⟨g, hmember, hst⟩
  · have hsame (g : GroupNo) (hsu : (s.group g).state = (u.group g).state) :
        (s.group g).state = (t.group g).state ∧ (t.group g).state = (u.group g).state := by
      have hback : Departing.rank (t.group g).state ≤ Departing.rank (s.group g).state := hsu ▸ h'.rank g
      have hst := rank_inj (le_antisymm (h.rank g) hback)
      exact ⟨hst, hst.symm.trans hsu⟩
    rintro (⟨g, hmember, hstate⟩ | ⟨g, hmember, hstate⟩)
    · exact ⟨g, hmember, fun hsu => hstate (hsame g hsu).1⟩
    · have hnotFree : (t.group g).state ≠ .free := fun hfree => hstate (hfree.trans (h'.free hfree).symm)
      exact ⟨g, (h.member g hnotFree).symm.trans hmember, fun hsu => hstate (hsame g hsu).2⟩

theorem Onward.trans {k : Port} {s t u : State} (h : Onward k s t) (h' : Onward k t u) : Onward k s u where
  rank g := (h.rank g).trans (h'.rank g)
  member g hu := by
    have hnotFree : (t.group g).state ≠ .free := fun hfree => hu (h'.free hfree)
    rw [h'.member g hu, h.member g hnotFree]
  roster := by rw [h'.roster, h.roster, h.hears_trans h', Bool.or_assoc]
  missed := h'.missed.trans h.missed

theorem Onward.foldl {α : Type} {k : Port} {f : State → α → State} (hf : ∀ s a, Onward k s (f s a)) (l : List α)
    (s : State) : Onward k s (l.foldl f s) :=
  List.foldlRecOn l f (Onward.refl k s) fun _ ht a _ => ht.trans (hf _ a)

/-! ## The charge of a group that loses messages (R3, R5) -/

/-- The entry `e'` is `e` with other counts, or `e` was CLOSING and its group is FREE. -/
def EntryFollows (e e' : Group) : Prop :=
  (e'.state = .free ∧ e.state = .closing) ∨ ∃ used inFlight, e' = { e with used := used, inFlight := inFlight }

theorem EntryFollows.refl (e : Group) : EntryFollows e e := .inr ⟨e.used, e.inFlight, rfl⟩

theorem EntryFollows.trans {e e' e'' : Group} (h : EntryFollows e e') (k : EntryFollows e' e'') :
    EntryFollows e e'' := by
  obtain ⟨hfree, hclosing⟩ | ⟨used, inFlight, rfl⟩ := h
  · obtain ⟨-, hclosing'⟩ | ⟨used, inFlight, rfl⟩ := k
    · cases hfree.symm.trans hclosing'
    · exact .inl ⟨hfree, hclosing⟩
  · obtain ⟨hfree, hclosing⟩ | ⟨used', inFlight', rfl⟩ := k
    · exact .inl ⟨hfree, hclosing⟩
    · exact .inr ⟨used', inFlight', rfl⟩

/-- From `s` to `t` messages end: the counts of their groups go down, CLOSING groups become FREE, and their members are
told. -/
structure Ending (s t : State) : Prop where
  entry  : ∀ g, EntryFollows (s.group g) (t.group g)
  onward : ∀ k, Onward k s t

theorem Ending.refl (s : State) : Ending s s := ⟨fun _ => .refl _, fun k => .refl k s⟩

theorem Ending.trans {s t u : State} (h : Ending s t) (k : Ending t u) : Ending s u :=
  ⟨fun g => (h.entry g).trans (k.entry g), fun p => (h.onward p).trans (k.onward p)⟩

theorem Ending.foldl {α : Type} {f : State → α → State} (hf : ∀ s a, Ending s (f s a)) (l : List α) (s : State) :
    Ending s (l.foldl f s) :=
  List.foldlRecOn l f (Ending.refl s) fun _ ht a _ => ht.trans (hf _ a)

theorem Ending.of_same {s t : State} (hgroup : ∀ g, t.group g = s.group g)
    (hport : ∀ k, (t.port k).roster = (s.port k).roster ∧ (t.port k).missed = (s.port k).missed) : Ending s t := by
  refine ⟨fun g => ?_, fun k => .of_same (fun g => ?_) (fun g => ?_) (hport k).1 (hport k).2⟩ <;> rw [hgroup]
  exact .refl _

theorem settle_ending (s : State) (r : RecordIndex) (p : Port) (o : TargetOutcome) (code : Byte) :
    Ending s (s.settle r p o code) := by
  have hdropped (f : CorePort → CorePort) (hf : ∀ c, (f c).roster = c.roster ∧ (f c).missed = c.missed) :
      Ending s ((s.modPort p f).setTarget r p o code) := by
    refine .of_same (fun _ => rfl) fun k => ?_
    rw [State.setTarget, modMessage_port, modPort_port]
    split
    · rename_i h; subst h; exact hf _
    · exact ⟨rfl, rfl⟩
  rcases settle_cases s r p o code with h | h | h <;> rw [h]
  · exact .refl s
  · exact hdropped _ fun _ => ⟨rfl, rfl⟩
  · exact hdropped _ fun _ => ⟨rfl, rfl⟩

theorem closeEntry_latches (s : State) (retiring : Option Port) (r : RecordIndex) (m : Message) (k : Port) :
    ((s.closeEntry retiring r m).port k).roster = (s.port k).roster ∧
      ((s.closeEntry retiring r m).port k).missed = (s.port k).missed := by
  unfold State.closeEntry
  split
  · exact ⟨rfl, rfl⟩
  · split <;> rw [modPort_port] <;> split
    · rename_i h; subst h; exact ⟨rfl, rfl⟩
    · exact ⟨rfl, rfl⟩
    · rename_i h; subst h; exact ⟨rfl, rfl⟩
    · exact ⟨rfl, rfl⟩

/-- The close of a record takes its charge from its group, and tells the members of a group that becomes FREE. -/
theorem closeRecord_ending {s : State} {r : RecordIndex} {m : Message} (hm : s.message r = some m)
    (retiring : Option Port) : Ending s (s.closeRecord retiring r) := by
  have hgroup := closeRecord_group_eq hm retiring
  have hother (j : GroupNo) (hj : j ≠ m.group) : (s.closeRecord retiring r).group j = s.group j := by
    rw [hgroup, if_pos hj]
  have hown : (s.closeRecord retiring r).group m.group =
      if groupFrees s m = true then Group.freed else uncharged m (s.group m.group) := by
    rw [hgroup, if_neg (not_not_intro rfl)]
  have hfollows : EntryFollows (s.group m.group) ((s.closeRecord retiring r).group m.group) := by
    rw [hown]
    split
    · rename_i hfrees
      exact .inl ⟨rfl, (groupFrees_iff.1 hfrees).1⟩
    · exact .inr ⟨_, _, rfl⟩
  have htold : decide ((s.group m.group).state ≠ ((s.closeRecord retiring r).group m.group).state) =
      groupFrees s m := by
    rw [hown]
    cases hfrees : groupFrees s m with
    | true => simp [(groupFrees_iff.1 hfrees).1, Group.freed]
    | false => simp [uncharged]
  refine ⟨fun g => ?_, fun k => ⟨fun g => ?_, fun g hg => ?_, ?_, ?_⟩⟩
  · by_cases hg : g = m.group
    · exact hg ▸ hfollows
    · rw [hother g hg]; exact .refl _
  · by_cases hg : g = m.group
    · subst hg
      obtain ⟨hfree, hclosing⟩ | ⟨used, inFlight, h⟩ := hfollows
      · rw [hfree, hclosing]; decide
      · rw [h]
    · rw [hother g hg]
  · by_cases hg' : g = m.group
    · subst hg'
      obtain ⟨hfree, -⟩ | ⟨used, inFlight, h⟩ := hfollows
      · exact absurd hfree hg
      · rw [h]
    · rw [hother g hg']
  · rw [hears_eq m.group fun j hj => by rw [hother j hj], htold, closeRecord_port_eq hm, Bool.and_comm]
    exact congrArg (· || _) (closeEntry_latches s retiring r m k).1
  · rw [closeRecord_port_eq hm]
    exact (closeEntry_latches s retiring r m k).2

theorem closeIfSettled_ending (s : State) (retiring : Option Port) (r : RecordIndex) :
    Ending s (s.closeIfSettled retiring r) := by
  obtain h | ⟨m, hm, -, h⟩ := closeIfSettled_cases s retiring r <;> rw [h]
  · exact .refl s
  · exact closeRecord_ending hm retiring

theorem withdraw_ending (s : State) (retiring : Option Port) (r : RecordIndex) (p : Port) :
    Ending s (s.withdraw retiring r p) := by
  unfold State.withdraw
  split
  · exact (settle_ending s r p _ _).trans (closeIfSettled_ending _ retiring r)
  · exact .refl s

theorem withdrawAll_ending (s : State) (retiring : Option Port) (p : Port) (rs : List RecordIndex) :
    Ending s (s.withdrawAll retiring p rs) := .foldl (fun t r => withdraw_ending t retiring r p) rs s

theorem retireMessages_ending (s : State) (p : Port) : Ending s (s.retireMessages p) := by
  refine .foldl (fun t r => ?_) allRecords s
  unfold State.endMessage
  split
  · exact .foldl (fun u q => withdraw_ending u (some p) r q) allPorts t
  · exact .refl t

/-- The members of a group that enters CLOSING are told, but for the port that caused it (R4). -/
theorem enterClosing_onward {s : State} {g : GroupNo} (hopen : (s.group g).state = .opened) {cause k : Port}
    (hk : k ≠ cause) (closer : Option Port) : Onward k s (s.enterClosing g cause closer) := by
  have hother (j : GroupNo) (hj : j ≠ g) : (s.enterClosing g cause closer).group j = s.group j := by
    rw [enterClosing_group, if_pos hj]
  have hown : (s.enterClosing g cause closer).group g =
      if (s.group g).inFlight = 0 then Group.freed else { s.group g with state := .closing } := by
    rw [enterClosing_group, if_neg (not_not_intro rfl)]
  refine ⟨fun j => ?_, fun j hj => ?_, ?_, ?_⟩
  · by_cases hjg : j = g
    · subst hjg
      rw [hopen]
      exact Nat.zero_le _
    · rw [hother j hjg]
  · by_cases hjg : j = g
    · subst hjg
      rw [hown] at hj ⊢
      split at hj
      · exact absurd rfl hj
      · rename_i hflight
        rw [if_neg hflight]
    · rw [hother j hjg]
  · have hchanges : (s.group g).state ≠ ((s.enterClosing g cause closer).group g).state := by
      rw [hopen, hown]
      split <;> nofun
    rw [hears_eq g fun j hj => by rw [hother j hj], decide_eq_true hchanges, enterClosing_port, decide_eq_true hk,
      Bool.true_or]
    rfl
  · rw [enterClosing_port]
    rfl

theorem loseAnchor_onward {p k : Port} (hk : k ≠ p) (s : State) (g : GroupNo) : Onward k s (State.loseAnchor p s g) := by
  have hlost : Onward k s (s.modGroup g fun e => { e with anchor := none }) := by
    refine .of_same (fun j => ?_) (fun j => ?_) rfl rfl <;> rw [modGroup_group] <;> split
    · rename_i h; subst h; rfl
    · rfl
    · rename_i h; subst h; rfl
    · rfl
  by_cases h : (s.group g).anchor = some p
  · by_cases hopen : (s.group g).state = .opened
    · rw [loseAnchor_of_opened h hopen]
      exact hlost.trans (enterClosing_onward (by rw [modGroup_group_same]; exact hopen) hk none)
    · rw [loseAnchor_of_not_opened h hopen]
      exact hlost
  · rw [loseAnchor_of_ne h]
    exact .refl k s

end Sys2Proof.Machine.Departing

namespace Sys2Proof.Machine.Departing

open Laws MessagePool Sending Traffic Queues Handles Receiving Expiry Answering SendLists Inactive Directory GroupCommands

/-! ## The entries of a send list as records close (R103, R113, R114) -/

theorem carries_handle {s : State} {r r' : RecordIndex} {e : SendEntry} (h : e.carries (s.handle r) = true)
    (h' : e.carries (s.handle r') = true) : r = r' := by
  cases e with
  | done t k => cases h
  | inTransit t k c =>
    simp only [SendEntry.carries, beq_iff_eq] at h h'
    exact congrArg Handle.index (h.symm.trans h')

theorem entryClosed_of_none {s : State} {closed : List RecordIndex} {p k : Port} {e : SendEntry}
    (h : closed.find? (fun r => s.sentBy r k && e.carries (s.handle r)) = none) :
    s.entryClosed closed p k e = some e := by
  rw [State.entryClosed, h]

theorem entryClosed_of_some {s : State} {closed : List RecordIndex} {p k : Port} {e : SendEntry} {r : RecordIndex}
    (h : closed.find? (fun r => s.sentBy r k && e.carries (s.handle r)) = some r) :
    s.entryClosed closed p k e = (s.message r).bind fun m =>
      if m.confirm then some (.done e.tag (completionBy (m.withOutcome p .withdrawn 0))) else none := by
  rw [State.entryClosed, h]

/-- A DONE entry is no record's (R113). -/
theorem entryClosed_done (s : State) (closed : List RecordIndex) (p k : Port) (tag : Byte) (c : Completion) :
    s.entryClosed closed p k (.done tag c) = some (.done tag c) :=
  entryClosed_of_none (List.find?_eq_none.2 fun r _ => by simp [SendEntry.carries])

/-- What a close leaves of an entry is the entry itself, or DONE. -/
theorem entryClosed_cases {s : State} {closed : List RecordIndex} {p k : Port} {e e' : SendEntry}
    (h : s.entryClosed closed p k e = some e') : e' = e ∨ ∃ tag c, e' = .done tag c := by
  cases hfind : closed.find? (fun r => s.sentBy r k && e.carries (s.handle r)) with
  | none =>
    rw [entryClosed_of_none hfind] at h
    exact .inl (Option.some.inj h).symm
  | some r =>
    rw [entryClosed_of_some hfind] at h
    obtain ⟨m, -, hm⟩ := Option.bind_eq_some_iff.1 h
    split at hm
    · exact .inr ⟨_, _, (Option.some.inj hm).symm⟩
    · cases hm

/-- The closes of some records and then of others, which the first have not changed. -/
theorem entryClosed_append {s t : State} {closed closed' : List RecordIndex} (p k : Port)
    (hrecord : ∀ r ∈ closed', t.record r = s.record r) (e : SendEntry) :
    s.entryClosed (closed ++ closed') p k e = (s.entryClosed closed p k e).bind (t.entryClosed closed' p k) := by
  have hmessage (r : RecordIndex) (hr : r ∈ closed') : t.message r = s.message r :=
    congrArg TransitRecord.message (hrecord r hr)
  cases hfind : closed.find? (fun r => s.sentBy r k && e.carries (s.handle r)) with
  | none =>
    have hsame : closed'.find? (fun r => t.sentBy r k && e.carries (t.handle r)) =
        closed'.find? (fun r => s.sentBy r k && e.carries (s.handle r)) :=
      List.find?_congr fun r hr => by rw [State.sentBy, State.sentBy, hmessage r hr, State.handle, State.handle,
        hrecord r hr]
    rw [entryClosed_of_none hfind, Option.bind_some]
    cases hfind' : closed'.find? (fun r => s.sentBy r k && e.carries (s.handle r)) with
    | none =>
      rw [entryClosed_of_none (by rw [List.find?_append, hfind, hfind']; rfl),
        entryClosed_of_none (hsame.trans hfind')]
    | some r =>
      rw [entryClosed_of_some (by rw [List.find?_append, hfind, hfind']; rfl),
        entryClosed_of_some (hsame.trans hfind'), hmessage r (List.mem_of_find?_eq_some hfind')]
  | some r =>
    rw [entryClosed_of_some (by rw [List.find?_append, hfind]; rfl), entryClosed_of_some hfind]
    cases s.message r with
    | none => rfl
    | some m =>
      dsimp only [Option.bind_some]
      split
      · rw [Option.bind_some, entryClosed_done]
      · rfl

/-- The entry of a record that has not closed is as it was. -/
theorem filter_entryClosed {s : State} {closed : List RecordIndex} {r : RecordIndex} (hr : r ∉ closed) (p k : Port)
    (l : List SendEntry) :
    (l.filterMap (s.entryClosed closed p k)).filter (fun e => e.carries (s.handle r)) =
      l.filter fun e => e.carries (s.handle r) := by
  induction l with
  | nil => rfl
  | cons e l ih =>
    by_cases hcarries : e.carries (s.handle r) = true
    · have hnone : closed.find? (fun j => s.sentBy j k && e.carries (s.handle j)) = none :=
        List.find?_eq_none.2 fun j hj hfound => hr (by
          rw [Bool.and_eq_true] at hfound
          exact carries_handle hcarries hfound.2 ▸ hj)
      rw [List.filterMap_cons_some (entryClosed_of_none hnone), List.filter_cons_of_pos (p := fun e : SendEntry => e.carries (s.handle r)) hcarries,
        List.filter_cons_of_pos (p := fun e : SendEntry => e.carries (s.handle r)) hcarries, ih]
    · rw [List.filter_cons_of_neg (p := fun e : SendEntry => e.carries (s.handle r)) hcarries, ← ih]
      cases hclosed : s.entryClosed closed p k e with
      | none => rw [List.filterMap_cons_none hclosed]
      | some e' =>
        rw [List.filterMap_cons_some hclosed, List.filter_cons_of_neg]
        obtain rfl | ⟨tag, c, rfl⟩ := entryClosed_cases hclosed
        · exact hcarries
        · simp [SendEntry.carries]

theorem sendListFollows_nil {p k : Port} {s t : State} (hsends : (t.port k).sends = (s.port k).sends)
    (hdone : (t.port k).doneOrder = (s.port k).doneOrder) : SendListFollows [] p k s t := by
  have hnone : s.entryClosed [] p k = some := funext fun _ => rfl
  refine ⟨?_, ?_⟩
  · rw [hsends, hnone, List.filterMap_some]
  · rw [hdone, State.tagsDone, List.filter_nil, List.flatMap_nil, List.append_nil]

/-- The closes of some records and then of others follow each other in the send lists. -/
theorem sendListFollows_append {closed closed' : List RecordIndex} {p k : Port} {s t u : State}
    (h : SendListFollows closed p k s t) (h' : SendListFollows closed' p k t u)
    (hrecord : ∀ r ∈ closed', t.record r = s.record r) (hdisjoint : ∀ r ∈ closed', r ∉ closed) :
    SendListFollows (closed ++ closed') p k s u := by
  obtain ⟨hsends, hdone⟩ := h
  obtain ⟨hsends', hdone'⟩ := h'
  refine ⟨?_, ?_⟩
  · rw [hsends', hsends, List.filterMap_filterMap]
    exact List.filterMap_congr fun e _ => (entryClosed_append p k hrecord e).symm
  · have htags : t.tagsDone closed' k = s.tagsDone closed' k := by
      have hfilter : closed'.filter (fun r => (t.message r).any fun m => m.sender == k && m.confirm) =
          closed'.filter (fun r => (s.message r).any fun m => m.sender == k && m.confirm) :=
        List.filter_congr fun r hr => by rw [State.message, State.message, hrecord r hr]
      rw [State.tagsDone, State.tagsDone, hfilter]
      refine List.flatMap_congr fun r hr => ?_
      have hr' := List.mem_of_mem_filter hr
      have hhandle : t.handle r = s.handle r := by rw [State.handle, State.handle, hrecord r hr']
      rw [hsends, hhandle, filter_entryClosed (hdisjoint r hr')]
    rw [hdone', hdone, htags, State.tagsDone, State.tagsDone, State.tagsDone, List.filter_append, List.flatMap_append,
      List.append_assoc]

/-- The close of one record, by its four steps. -/
theorem sendListFollows_of_closes {r : RecordIndex} {m : Message} {s t : State} {p : Port} (hm : s.message r = some m)
    (h : RecordCloses r (m.withOutcome p .withdrawn 0) s t) (k : Port) : SendListFollows [r] p k s t := by
  obtain ⟨-, -, -, -, hports⟩ := h
  obtain ⟨-, hsends, hdone⟩ := hports k
  have hsent : s.sentBy r k = (m.sender == k) := by rw [State.sentBy, hm, Option.any_some]
  have hentry (e : SendEntry) : s.entryClosed [r] p k e =
      if (m.sender == k && e.carries (s.handle r)) = true then
        if m.confirm then some (.done e.tag (completionBy (m.withOutcome p .withdrawn 0))) else none
      else some e := by
    by_cases hfound : (m.sender == k && e.carries (s.handle r)) = true
    · rw [if_pos hfound, entryClosed_of_some (r := r) (by rw [List.find?_singleton, hsent, if_pos hfound]), hm,
        Option.bind_some]
    · rw [if_neg hfound, entryClosed_of_none (by rw [List.find?_singleton, hsent, if_neg hfound])]
  have htags : s.tagsDone [r] k =
      if (m.sender == k && m.confirm) = true then
        ((s.port k).sends.filter fun e => e.carries (s.handle r)).map SendEntry.tag
      else [] := by
    rw [State.tagsDone, List.filter_singleton, hm, Option.any_some]
    cases m.sender == k && m.confirm
    · rfl
    · exact List.append_nil _
  refine ⟨hsends.trans ?_, hdone.trans ?_⟩
  · by_cases hk : k = m.sender
    · subst hk
      refine (if_neg (not_not_intro rfl)).trans ?_
      simp only [hentry, beq_self_eq_true, Bool.true_and]
      split
      · rename_i hconfirm
        rw [← List.filterMap_eq_map]
        refine List.filterMap_congr fun e _ => ?_
        have hc : m.confirm = true := hconfirm
        rw [hc, if_pos rfl, Function.comp_apply]
        split <;> rfl
      · rename_i hconfirm
        have hc : m.confirm = false := Bool.eq_false_iff.2 hconfirm
        rw [← List.filterMap_eq_filter]
        refine List.filterMap_congr fun e _ => ?_
        rw [hc, if_neg Bool.false_ne_true, Option.guard]
        cases e.carries (s.handle r) <;> rfl
    · have hne : (m.sender == k) = false := beq_eq_false_iff_ne.2 (Ne.symm hk)
      have hnone : s.entryClosed [r] p k = some := funext fun e => by
        rw [hentry, hne, Bool.false_and, if_neg Bool.false_ne_true]
      rw [hnone, List.filterMap_some]
      exact if_pos hk
  · have hiff : (m.sender == k && m.confirm) = true ↔ k = m.sender ∧ m.confirm = true := by
      rw [Bool.and_eq_true, beq_iff_eq, eq_comm]
    rw [htags]
    by_cases hk : k = m.sender ∧ m.confirm = true
    · refine (if_pos hk).trans ?_
      rw [if_pos (hiff.2 hk)]
    · refine (if_neg hk).trans ?_
      rw [if_neg (mt hiff.1 hk), List.append_nil]

/-! ## The withdrawal of one port from records, one after another (R76, R91, R103) -/

/-- Port `p` has been withdrawn from these records, in their order; `o` is a port whose send list is not followed: one
that is being retired (R120). -/
structure Goes (o : Option Port) (p : Port) (rs : List RecordIndex) (s t : State) : Prop where
  record   : ∀ r, r ∉ rs → t.record r = s.record r
  fate     : ∀ r ∈ rs, Withdrawn p r s t
  freeList : t.freeList = s.freeList ++ (rs.filter (s.lastOpen p)).flatMap s.chainOf
  sendList : ∀ k, o ≠ some k → SendListFollows (rs.filter (s.lastOpen p)) p k s t

/-- An operation outside the records, the free list and the send lists. -/
theorem Goes.quiet {o : Option Port} {p : Port} {s t : State} (hrecord : ∀ r, t.record r = s.record r)
    (hfree : t.freeList = s.freeList)
    (hports : ∀ k, o ≠ some k → (t.port k).sends = (s.port k).sends ∧ (t.port k).doneOrder = (s.port k).doneOrder) :
    Goes o p [] s t :=
  ⟨fun r _ => hrecord r, nofun, hfree.trans (List.append_nil _).symm,
    fun k hk => sendListFollows_nil (hports k hk).1 (hports k hk).2⟩

theorem Goes.append {o : Option Port} {p : Port} {rs rs' : List RecordIndex} {s t u : State} (h : Goes o p rs s t)
    (h' : Goes o p rs' t u) (hdisjoint : ∀ r ∈ rs', r ∉ rs) : Goes o p (rs ++ rs') s u := by
  have hrecord (r : RecordIndex) (hr : r ∈ rs') : t.record r = s.record r := h.record r (hdisjoint r hr)
  have hmessage (r : RecordIndex) (hr : r ∈ rs') : t.message r = s.message r :=
    congrArg TransitRecord.message (hrecord r hr)
  have hlast : rs'.filter (t.lastOpen p) = rs'.filter (s.lastOpen p) :=
    List.filter_congr fun r hr => by rw [State.lastOpen, State.lastOpen, hmessage r hr]
  have hchains : (rs'.filter (s.lastOpen p)).flatMap t.chainOf = (rs'.filter (s.lastOpen p)).flatMap s.chainOf :=
    List.flatMap_congr fun r hr => by
      rw [State.chainOf, State.chainOf, hmessage r (List.mem_of_mem_filter hr)]
  refine ⟨fun r hr => ?_, fun r hr m hm => ?_, ?_, fun k hk => ?_⟩
  · rw [List.mem_append, not_or] at hr
    rw [h'.record r hr.2, h.record r hr.1]
  · by_cases hlater : r ∈ rs'
    · rw [h'.fate r hlater m ((hmessage r hlater).trans hm), hrecord r hlater]
    · rw [h'.record r hlater]
      exact h.fate r ((List.mem_append.1 hr).resolve_right hlater) m hm
  · rw [h'.freeList, h.freeList, hlast, hchains, List.filter_append, List.flatMap_append, List.append_assoc]
  · rw [List.filter_append]
    refine sendListFollows_append (h.sendList k hk) (hlast ▸ h'.sendList k hk)
      (fun r hr => hrecord r (List.mem_of_mem_filter hr)) fun r hr hr' => ?_
    exact hdisjoint r (List.mem_of_mem_filter hr) (List.mem_of_mem_filter hr')

theorem lastOpen_of_message {s : State} {r : RecordIndex} {m : Message} (hm : s.message r = some m) (p : Port) :
    s.lastOpen p r = !(m.withOutcome p .withdrawn 0).hasOpenTarget := by
  rw [State.lastOpen, hm, Option.any_some]

theorem chainOf_of_message {s : State} {r : RecordIndex} {m : Message} (hm : s.message r = some m) :
    s.chainOf r = m.chain := by
  rw [State.chainOf, hm]
  rfl

/-- The retired port apart, a record closes with and without a retirement alike (R120). -/
theorem closeRecord_port_none {s : State} {r : RecordIndex} {m : Message} (hm : s.message r = some m)
    {o : Option Port} {k : Port} (hk : o ≠ some k) : (s.closeRecord o r).port k = (s.closeRecord none r).port k := by
  have hentry : (s.closeEntry o r m).port k = (s.closeEntry none r m).port k := by
    by_cases ho : o = some m.sender
    · have hne : m.sender ≠ k := fun h => hk (h ▸ ho)
      rw [closeEntry_port, if_neg hne, State.closeEntry, if_pos ho]
    · rw [closeEntry_of_ne ho]
  rw [closeRecord_port_eq hm, closeRecord_port_eq hm, hentry]

/-- The withdrawal of one open target, with the check of R91 that follows it. -/
theorem withdraw_goes (o : Option Port) {p : Port} {r : RecordIndex} {s : State} (hs : Agrees s)
    (hopen : s.isOpenTarget r p = true) : Goes o p [r] s (s.withdraw o r p) := by
  obtain ⟨m, hm, houtcome⟩ := isOpenTarget_iff.1 hopen
  have hstays : RecordStays r (m.withOutcome p .withdrawn 0) s (s.settle r p .withdrawn 0) := by
    rw [withOutcome_eq_setTarget, setTarget_eq_settledAt (hs.sound r m hm).ascending houtcome]
    exact (settleOne hs hm p rfl).stays
  have hmessage := RecordStays.message hstays
  rw [State.withdraw, if_pos hopen]
  cases hlast : (m.withOutcome p .withdrawn 0).hasOpenTarget with
  | true =>
    rw [closeIfSettled_open hmessage hlast]
    obtain ⟨hrecord, -, -, hfree, hports⟩ := hstays
    have hnone : [r].filter (s.lastOpen p) = [] := by
      rw [List.filter_singleton, lastOpen_of_message hm, hlast]
      rfl
    refine ⟨fun k hk => ?_, fun k hk m' hm' => ?_, ?_, fun k _ => ?_⟩
    · rw [hrecord, if_neg fun h => hk (List.mem_singleton.2 h)]
    · obtain rfl := List.mem_singleton.1 hk
      cases hm.symm.trans hm'
      rw [hrecord, if_pos rfl, if_pos hlast]
    · rw [hnone, hfree, List.flatMap_nil, List.append_nil]
    · rw [hnone]
      exact sendListFollows_nil (hports k).1 (hports k).2.1
  | false =>
    rw [closeIfSettled_settled hmessage hlast]
    have hcloses := recordCloses_of_stays hstays (closeRecord_closes hmessage)
    have hfollows := sendListFollows_of_closes hm hcloses
    obtain ⟨hrecord, hfree, -⟩ := hcloses
    have hone : [r].filter (s.lastOpen p) = [r] := by
      rw [List.filter_singleton, lastOpen_of_message hm, hlast]
      rfl
    have hsame (k : RecordIndex) : ((s.settle r p .withdrawn 0).closeRecord o r).record k =
        ((s.settle r p .withdrawn 0).closeRecord none r).record k := by
      rw [closeRecord_record hmessage, closeRecord_record hmessage]
    refine ⟨fun k hk => ?_, fun k hk m' hm' => ?_, ?_, fun k hk => ?_⟩
    · rw [hsame, hrecord, if_neg fun h => hk (List.mem_singleton.2 h)]
    · obtain rfl := List.mem_singleton.1 hk
      cases hm.symm.trans hm'
      rw [hsame, hrecord, if_pos rfl, hlast, if_neg Bool.false_ne_true]
    · rw [hone, List.flatMap_singleton, chainOf_of_message hm, closeRecord_freeList hmessage,
        ← closeRecord_freeList hmessage none, hfree]
      rfl
    · rw [hone, SendListFollows, closeRecord_port_none hmessage hk]
      exact hfollows k

/-- A port is withdrawn from records that it is an open target of, one after another. -/
theorem withdrawAll_goes (o : Option Port) (p : Port) {rs : List RecordIndex} {s : State} (hs : HandleLaw s)
    (hnodup : rs.Nodup) (hopen : ∀ r ∈ rs, s.isOpenTarget r p = true) : Goes o p rs s (s.withdrawAll o p rs) := by
  induction rs generalizing s with
  | nil => exact .quiet (fun _ => rfl) rfl fun _ _ => ⟨rfl, rfl⟩
  | cons r rs ih =>
    obtain ⟨hr, hrest⟩ := List.nodup_cons.1 hnodup
    have hone := withdraw_goes o (handleLaw_iff.1 hs).1 (hopen r List.mem_cons_self)
    have hother (k : RecordIndex) (hk : k ∈ rs) : (s.withdraw o r p).record k = s.record k :=
      hone.record k fun h => hr (List.mem_singleton.1 h ▸ hk)
    have hall := ih (s := s.withdraw o r p) (drains_handleLaw (.withdraw s o r p) hs) hrest fun k hk => by
      rw [State.isOpenTarget, State.message, hother k hk]
      exact hopen k (List.mem_cons_of_mem r hk)
    exact hone.append hall fun k hk h => hr (List.mem_singleton.1 h ▸ hk)

end Sys2Proof.Machine.Departing

namespace Sys2Proof.Machine.Departing

open Laws MessagePool Sending Traffic Queues Handles Receiving Expiry Answering SendLists Inactive Directory GroupCommands

/-! ## Queues and held lists, read from the records (R63, R66, R76) -/

/-- A list from which entries are only taken is what it was without those that are gone. -/
theorem eq_filter_of_sublist {α : Type} {l l' : List α} {P : α → Bool} (hsub : l'.Sublist l) (hnodup : l.Nodup)
    (hmem : ∀ a ∈ l, a ∈ l' ↔ P a = true) : l' = l.filter P := by
  have hself : l'.filter P = l' := List.filter_eq_self.2 fun a ha => (hmem a (hsub.subset ha)).1 ha
  have hsub' : l'.Sublist (l.filter P) := hself ▸ hsub.filter P
  have hback : l.filter P ⊆ l' := fun a ha => by
    obtain ⟨hl, hP⟩ := List.mem_filter.1 ha
    exact (hmem a hl).2 hP
  exact hsub'.eq_of_length_le ((hnodup.filter P).subperm hback).length_le

/-- Record `r` is still for port `k` what it was. -/
def KeepsTarget (k : Port) (r : RecordIndex) (s t : State) : Prop :=
  t.handle r = s.handle r ∧
    ∀ m, s.message r = some m → ∃ m', t.message r = some m' ∧ m'.outcomeOf k = m.outcomeOf k ∧ m'.cls = m.cls

theorem KeepsTarget.of_record {k : Port} {r : RecordIndex} {s t : State} (h : t.record r = s.record r) :
    KeepsTarget k r s t := by
  refine ⟨by rw [State.handle, State.handle, h], fun m hm => ⟨m, ?_, rfl, rfl⟩⟩
  rw [State.message, h]
  exact hm

/-- A queue keeps the deliveries of the records that its port is still a target of. -/
theorem queue_eq_filter {s t : State} {k : Port} (hs : Agrees s) (ht : Agrees t)
    (hsub : (t.port k).queue.Sublist (s.port k).queue) {P : RecordIndex → Bool}
    (hkeep : ∀ d ∈ (s.port k).queue, P d.handle.index = true → KeepsTarget k d.handle.index s t)
    (hgone : ∀ d ∈ (s.port k).queue, P d.handle.index = false → t.isOpenTarget d.handle.index k = false) :
    (t.port k).queue = (s.port k).queue.filter fun d => P d.handle.index := by
  refine eq_filter_of_sublist hsub (hs.queueNodup k) fun d hd => ?_
  obtain ⟨m, hm, houtcome, hdelivery⟩ := (hs.queued k d).1 hd
  rw [ht.queued k d]
  constructor
  · rintro ⟨m', hm', houtcome', -⟩
    by_contra hP
    have hclosed := hgone d hd (Bool.eq_false_iff.2 hP)
    rw [isOpenTarget_iff.2 ⟨m', hm', .inl houtcome'⟩] at hclosed
    cases hclosed
  · intro hP
    obtain ⟨hhandle, hmessage⟩ := hkeep d hd hP
    obtain ⟨m', hm', hsame, hcls⟩ := hmessage m hm
    exact ⟨m', hm', hsame.trans houtcome, by rw [hhandle, hcls]; exact hdelivery⟩

/-- A held list keeps the entries of the records that its port is still a target of. -/
theorem held_eq_filter {s t : State} {k : Port} (hs : Agrees s) (ht : Agrees t)
    (hsub : (t.port k).held.Sublist (s.port k).held) {P : RecordIndex → Bool}
    (hkeep : ∀ h ∈ (s.port k).held, P h.index = true → KeepsTarget k h.index s t)
    (hgone : ∀ h ∈ (s.port k).held, P h.index = false → t.isOpenTarget h.index k = false) :
    (t.port k).held = (s.port k).held.filter fun h => P h.index := by
  refine eq_filter_of_sublist hsub (hs.heldNodup k) fun h hh => ?_
  obtain ⟨m, hm, houtcome, hheld⟩ := (hs.held k h).1 hh
  rw [ht.held k h]
  constructor
  · rintro ⟨m', hm', houtcome', -⟩
    by_contra hP
    have hclosed := hgone h hh (Bool.eq_false_iff.2 hP)
    rw [isOpenTarget_iff.2 ⟨m', hm', .inr houtcome'⟩] at hclosed
    cases hclosed
  · intro hP
    obtain ⟨hhandle, hmessage⟩ := hkeep h hh hP
    obtain ⟨m', hm', hsame, -⟩ := hmessage m hm
    exact ⟨m', hm', hsame.trans houtcome, by rw [hhandle]; exact hheld⟩

/-- Of a port that is not the one withdrawn, and of a record that is not withdrawn from, targets stay. -/
theorem Goes.keepsTarget {o : Option Port} {p : Port} {rs : List RecordIndex} {s t : State} (h : Goes o p rs s t)
    {k : Port} {r : RecordIndex} (hopen : s.isOpenTarget r k = true) (hr : k ≠ p ∨ r ∉ rs) : KeepsTarget k r s t := by
  by_cases hmem : r ∈ rs
  · have hk : k ≠ p := hr.resolve_right fun hr => hr hmem
    obtain ⟨m, hm, houtcome⟩ := isOpenTarget_iff.1 hopen
    have hsame : (m.withOutcome p .withdrawn 0).outcomeOf k = m.outcomeOf k := by
      rw [withOutcome_eq_setTarget, outcomeOf_setTarget, if_neg hk]
    have hlast : (m.withOutcome p .withdrawn 0).hasOpenTarget = true := by
      obtain houtcome | houtcome := houtcome <;> exact hasOpenTarget_of_outcomeOf (hsame.trans houtcome) rfl
    have hrecord := h.fate r hmem m hm
    rw [if_pos hlast] at hrecord
    refine ⟨by rw [State.handle, State.handle, hrecord], fun m' hm' => ?_⟩
    cases hm.symm.trans hm'
    exact ⟨_, congrArg TransitRecord.message hrecord, hsame, rfl⟩
  · exact .of_record (h.record r hmem)

theorem Goes.not_isOpenTarget {o : Option Port} {p : Port} {rs : List RecordIndex} {s t : State} (h : Goes o p rs s t)
    {r : RecordIndex} (hr : r ∈ rs) (hopen : s.isOpenTarget r p = true) : t.isOpenTarget r p = false := by
  obtain ⟨m, hm, houtcome⟩ := isOpenTarget_iff.1 hopen
  have hrecord := h.fate r hr m hm
  have hfinal : (m.withOutcome p .withdrawn 0).outcomeOf p = some .withdrawn := by
    rw [withOutcome_eq_setTarget, outcomeOf_setTarget, if_pos rfl]
    obtain houtcome | houtcome := houtcome <;> rw [houtcome] <;> rfl
  rw [State.isOpenTarget, State.message, hrecord]
  split
  · rw [Option.any_some, hfinal]; rfl
  · rfl

theorem isOpenTarget_of_queued {s : State} (hs : Agrees s) {p : Port} {d : Delivery} (hd : d ∈ (s.port p).queue) :
    s.isOpenTarget d.handle.index p = true := by
  obtain ⟨m, hm, houtcome, -⟩ := (hs.queued p d).1 hd
  exact isOpenTarget_iff.2 ⟨m, hm, .inl houtcome⟩

theorem isOpenTarget_of_held {s : State} (hs : Agrees s) {p : Port} {h : Handle} (hh : h ∈ (s.port p).held) :
    s.isOpenTarget h.index p = true := by
  obtain ⟨m, hm, houtcome, -⟩ := (hs.held p h).1 hh
  exact isOpenTarget_iff.2 ⟨m, hm, .inr houtcome⟩

/-- A record has one place in a queue at most. -/
theorem queueRecords_nodup {s : State} (hs : Agrees s) (p : Port) :
    ((s.port p).queue.map fun d => d.handle.index).Nodup := by
  refine (hs.queueNodup p).map_on fun d hd d' hd' h => ?_
  obtain ⟨m, hm, -, hdelivery⟩ := (hs.queued p d).1 hd
  obtain ⟨m', hm', -, hdelivery'⟩ := (hs.queued p d').1 hd'
  have hindex : d.handle.index = d'.handle.index := h
  rw [← hindex] at hm' hdelivery'
  cases hm.symm.trans hm'
  exact hdelivery.trans hdelivery'.symm

theorem heldRecords_nodup {s : State} (hs : Agrees s) (p : Port) : ((s.port p).held.map Handle.index).Nodup := by
  refine (hs.heldNodup p).map_on fun h hh h' hh' hindex => ?_
  obtain ⟨-, -, -, hheld⟩ := (hs.held p h).1 hh
  obtain ⟨-, -, -, hheld'⟩ := (hs.held p h').1 hh'
  exact hheld.trans (hindex ▸ hheld'.symm)

theorem mem_queueRecords {s : State} (hs : Agrees s) {p : Port} {r : RecordIndex} :
    r ∈ ((s.port p).queue.map fun d => d.handle.index) ↔ ∃ m, s.message r = some m ∧ m.outcomeOf p = some .queued := by
  rw [List.mem_map]
  constructor
  · rintro ⟨d, hd, rfl⟩
    obtain ⟨m, hm, houtcome, -⟩ := (hs.queued p d).1 hd
    exact ⟨m, hm, houtcome⟩
  · rintro ⟨m, hm, houtcome⟩
    exact ⟨⟨s.handle r, m.cls⟩, (hs.queued p _).2 ⟨m, hm, houtcome, rfl⟩, rfl⟩

theorem mem_heldRecords {s : State} (hs : Agrees s) {p : Port} {r : RecordIndex} :
    r ∈ (s.port p).held.map Handle.index ↔ ∃ m, s.message r = some m ∧ m.outcomeOf p = some .held := by
  rw [List.mem_map]
  constructor
  · rintro ⟨h, hh, rfl⟩
    obtain ⟨m, hm, houtcome, -⟩ := (hs.held p h).1 hh
    exact ⟨m, hm, houtcome⟩
  · rintro ⟨m, hm, houtcome⟩
    exact ⟨s.handle r, (hs.held p _).2 ⟨m, hm, houtcome, rfl⟩, rfl⟩

/-! ## The entries of the groups, read from the records (R2, R3, R5) -/

/-- The laws that a departure and a retirement are said under. -/
structure Lawful (s : State) : Prop where
  handle : HandleLaw s
  quota  : QuotaLaw s
  group  : GroupLaw s

theorem Lawful.agrees {s : State} (h : Lawful s) : Agrees s := (handleLaw_iff.1 h.handle).1

theorem Lawful.balanced {s : State} (h : Lawful s) (g : GroupNo) : Balanced s g := (quotaLaw_iff.1 h.quota).2.2 g

theorem Lawful.entry {s : State} (h : Lawful s) (g : GroupNo) : EntryLaw g (s.group g) := groupLaw_iff.1 h.group g

/-- Where the laws hold, a group that lost messages is FREE exactly if it was CLOSING and has none left in flight, and
its counts are those of its records. -/
theorem entry_of_follows {u : State} (hu : Lawful u) {g : GroupNo} {e : Group} (h : EntryFollows e (u.group g)) :
    u.group g = if e.state = .closing ∧ u.flightsOf g = 0 then Group.freed
      else { e with used := u.blocksOf g, inFlight := u.flightsOf g } := by
  obtain ⟨hused, hflight, -, -⟩ := hu.balanced g
  obtain ⟨hfree, hclosing⟩ | ⟨used, inFlight, heq⟩ := h
  · have hfreed := (hu.entry g).free hfree
    rw [hfreed] at hflight
    rw [if_pos ⟨hclosing, hflight.symm⟩, hfreed]
  · have hstays : ¬ (e.state = .closing ∧ u.flightsOf g = 0) := fun ⟨hclosing, hnone⟩ => by
      have hleft := (hu.entry g).closing (by rw [heq]; exact hclosing)
      omega
    rw [if_neg hstays]
    rw [heq] at hused hflight ⊢
    exact congrArg₂ (fun a b => { e with used := a, inFlight := b }) hused hflight

/-- A group none of whose records has changed is as it was. -/
theorem group_of_charges {s u : State} (hs : Lawful s) (hu : Lawful u) {g : GroupNo}
    (h : EntryFollows (s.group g) (u.group g))
    (hcharges : u.blocksOf g = s.blocksOf g ∧ u.flightsOf g = s.flightsOf g) : u.group g = s.group g := by
  obtain ⟨hused, hflight, -, -⟩ := hs.balanced g
  obtain ⟨hblocks, hflights⟩ := hcharges
  have hstays : ¬ ((s.group g).state = .closing ∧ u.flightsOf g = 0) := fun ⟨hclosing, hnone⟩ => by
    have hleft := (hs.entry g).closing hclosing
    omega
  rw [entry_of_follows hu h, if_neg hstays, hblocks, hflights, ← hused, ← hflight]

/-- What is withdrawn from a record leaves its group and its chain. -/
theorem Goes.isOfGroup {o : Option Port} {p : Port} {rs : List RecordIndex} {s t : State} (h : Goes o p rs s t)
    {r : RecordIndex} (hr : r ∈ rs) {m : Message} (hm : s.message r = some m) {g : GroupNo} (hg : m.group ≠ g) :
    t.isOfGroup g r = false := by
  rw [State.isOfGroup, State.message, h.fate r hr m hm]
  split
  · exact beq_eq_false_iff_ne.2 hg
  · rfl

/-- The charges of a group that no withdrawn record is of. -/
theorem Goes.charges {o : Option Port} {p : Port} {rs : List RecordIndex} {s t : State} (h : Goes o p rs s t)
    {g : GroupNo} (hrs : ∀ r ∈ rs, ∃ m, s.message r = some m ∧ m.group ≠ g) :
    t.blocksOf g = s.blocksOf g ∧ t.flightsOf g = s.flightsOf g := by
  have hsame (r : RecordIndex) : blocksAt t g r = blocksAt s g r ∧ flightsAt t g r = flightsAt s g r := by
    by_cases hr : r ∈ rs
    · obtain ⟨m, hm, hg⟩ := hrs r hr
      have hbefore : s.isOfGroup g r = false := by
        rw [State.isOfGroup, hm]
        exact beq_eq_false_iff_ne.2 hg
      rw [blocksAt, blocksAt, flightsAt, flightsAt, hbefore, h.isOfGroup hr hm hg]
      exact ⟨rfl, rfl⟩
    · exact charges_congr (by rw [State.message, State.message, h.record r hr]; exact optionRel_refl _) g
  simp only [blocksOf_eq_sum, flightsOf_eq_sum]
  exact ⟨Finset.sum_congr rfl fun r _ => (hsame r).1, Finset.sum_congr rfl fun r _ => (hsame r).2⟩

end Sys2Proof.Machine.Departing

namespace Sys2Proof.Machine.Departing

open Laws MessagePool Sending Traffic Queues Handles Receiving Expiry Answering SendLists Inactive Directory GroupCommands

/-! ## LEAVE and EXPEL (R17, R21, R76, R78) -/

/-- The records that port `q` is withdrawn from when it is out of group `g`, in the order of its queue (R78). -/
def leftAt (s : State) (q : Port) (g : GroupNo) : List RecordIndex :=
  ((s.port q).queue.map fun d => d.handle.index).filter (s.isOfGroup g)

theorem mem_leftAt {s : State} (hs : Agrees s) {q : Port} {g : GroupNo} {r : RecordIndex} :
    r ∈ leftAt s q g ↔ s.isOfGroup g r = true ∧ s.targetIs r q .queued (fun _ => true) = true := by
  rw [leftAt, List.mem_filter, mem_queueRecords hs, targetIs_iff, and_comm]
  simp

theorem closesAtLeave_eq (s : State) (q : Port) (g : GroupNo) :
    s.closesAtLeave q g = (leftAt s q g).filter (s.lastOpen q) := by
  rw [State.closesAtLeave, leftAt, List.filter_filter]
  exact List.filter_congr fun r _ => Bool.and_comm _ _

/-- The tables `v` once port `q` is out of group `g` and is told of it or not, and `u` once it is withdrawn. -/
structure Departs (q : Port) (g : GroupNo) (told : Port → Bool) (s v u : State) : Prop where
  group    : v.group g = { s.group g with members := PortSet.erase (s.group g).members q }
  other    : ∀ k, k ≠ g → v.group k = s.group k
  roster   : ∀ k, (v.port k).roster = ((s.port k).roster || told k)
  missed   : ∀ k, (v.port k).missed = (s.port k).missed
  ending   : Ending v u
  goes     : Goes none q (leftAt s q g) s u
  lists    : Subsides s u
  state    : ∀ k, (u.port k).portState = (s.port k).portState
  bytes    : SameBytes s u

theorem departureFrees_iff {s u : State} {g : GroupNo} :
    s.departureFrees u g = true ↔ (s.group g).state = .closing ∧ u.flightsOf g = 0 := by
  rw [State.departureFrees, Bool.and_eq_true, beq_iff_eq, beq_iff_eq]

/-- The entry of the group that is left. -/
theorem Departs.entry {q : Port} {g : GroupNo} {told : Port → Bool} {s v u : State} (h : Departs q g told s v u)
    (hu : Lawful u) :
    u.group g = if s.departureFrees u g = true then Group.freed else
      { s.group g with
        members := PortSet.erase (s.group g).members q, used := u.blocksOf g, inFlight := u.flightsOf g } := by
  have hfollows := h.ending.entry g
  rw [h.group] at hfollows
  rw [entry_of_follows hu hfollows]
  exact if_congr departureFrees_iff.symm rfl rfl

section

variable {q : Port} {g : GroupNo} {told : Port → Bool} {s v u : State} (h : Departs q g told s v u) (hs : Lawful s)
  (hu : Lawful u)

include h hs hu

/-- The other groups have no part in it. -/
theorem Departs.entry_other {k : GroupNo} (hk : k ≠ g) : u.group k = s.group k := by
  have hfollows := h.ending.entry k
  rw [h.other k hk] at hfollows
  refine group_of_charges hs hu hfollows (h.goes.charges fun r hr => ?_)
  obtain ⟨hgroup, -⟩ := (mem_leftAt hs.agrees).1 hr
  obtain ⟨m, hm, hmg⟩ := (Option.any_eq_true _ _).1 hgroup
  exact ⟨m, hm, fun hmk => hk (hmk.symm.trans (eq_of_beq hmg))⟩

theorem Departs.reservedTotal :
    u.reservedTotal =
      if s.departureFrees u g = true then s.reservedTotal - (s.group g).quota else s.reservedTotal := by
  have hbefore := (quotaLaw_iff.1 hs.quota).1
  have hafter := (quotaLaw_iff.1 hu.quota).1
  have hchange : ∑ k, (u.group k).quota + (s.group g).quota = ∑ k, (s.group k).quota + (u.group g).quota :=
    sum_change (f := fun k => (s.group k).quota) (f' := fun k => (u.group k).quota) g fun k hk => by
      rw [h.entry_other hs hu hk]
  have hentry := h.entry hu
  split <;> rename_i hfrees
  · rw [if_pos hfrees] at hentry
    have hquota : (u.group g).quota = 0 := by rw [hentry]; rfl
    omega
  · rw [if_neg hfrees] at hentry
    have hquota : (u.group g).quota = (s.group g).quota := by rw [hentry]
    omega

/-- The members that are left are told where the group becomes FREE (R5). -/
theorem Departs.roster_eq (k : Port) :
    (u.port k).roster = ((s.port k).roster || told k ||
      (s.departureFrees u g && decide (k ≠ q) && PortSet.has (s.group g).members k)) := by
  have hstate : decide ((v.group g).state ≠ (u.group g).state) = s.departureFrees u g := by
    rw [h.group, h.entry hu]
    cases hfrees : s.departureFrees u g with
    | true => simp [(departureFrees_iff.1 hfrees).1, Group.freed]
    | false => simp
  have hmember : PortSet.has (v.group g).members k = (PortSet.has (s.group g).members k && decide (k ≠ q)) := by
    rw [h.group, has_erase]
  rw [(h.ending.onward k).roster, h.roster, hears_eq g fun j hj => by rw [h.entry_other hs hu hj, h.other j hj],
    hstate, hmember]
  congr 1
  rw [Bool.and_comm, Bool.and_comm (PortSet.has _ k), ← Bool.and_assoc]

theorem Departs.queue :
    (u.port q).queue = ((s.port q).queue.filter fun d => !s.isOfGroup g d.handle.index) := by
  refine queue_eq_filter hs.agrees hu.agrees (h.lists.queue q) (P := fun r => !s.isOfGroup g r)
    (fun d hd hP => h.goes.keepsTarget (isOpenTarget_of_queued hs.agrees hd) (.inr fun hmem => ?_)) fun d hd hP => ?_
  · rw [((mem_leftAt hs.agrees).1 hmem).1] at hP
    cases hP
  · obtain ⟨m, hm, houtcome, -⟩ := (hs.agrees.queued q d).1 hd
    have hgroup : s.isOfGroup g d.handle.index = true := by simpa using hP
    exact h.goes.not_isOpenTarget ((mem_leftAt hs.agrees).2 ⟨hgroup, targetIs_iff.2 ⟨m, hm, houtcome, rfl⟩⟩)
      (isOpenTarget_of_queued hs.agrees hd)

theorem Departs.queue_other {k : Port} (hk : k ≠ q) : (u.port k).queue = (s.port k).queue := by
  rw [queue_eq_filter hs.agrees hu.agrees (h.lists.queue k) (P := fun _ => true)
    (fun d hd _ => h.goes.keepsTarget (isOpenTarget_of_queued hs.agrees hd) (.inl hk)) nofun, List.filter_true]

/-- A held message is not withdrawn: the port goes on to answer it (R78). -/
theorem Departs.held (k : Port) : (u.port k).held = (s.port k).held := by
  have hkeep (j : Handle) (hj : j ∈ (s.port k).held) : KeepsTarget k j.index s u := by
    refine h.goes.keepsTarget (isOpenTarget_of_held hs.agrees hj) ?_
    by_cases hk : k = q
    · refine .inr fun hmem => ?_
      obtain ⟨m, hm, hheld, -⟩ := (hs.agrees.held k j).1 hj
      obtain ⟨m', hm', hqueued, -⟩ := targetIs_iff.1 ((mem_leftAt hs.agrees).1 hmem).2
      cases hm.symm.trans hm'
      cases (hk ▸ hheld).symm.trans hqueued
    · exact .inl hk
  rw [held_eq_filter hs.agrees hu.agrees (h.lists.held k) (P := fun _ => true) (fun j hj _ => hkeep j hj) nofun,
    List.filter_true]

theorem Departs.leavesGroup : LeavesGroup q g told s u := by
  refine ⟨h.queue hs hu, fun k hk => h.queue_other hs hu hk, fun k => ⟨h.held hs hu k, ⟨h.state k, ?_⟩,
    h.roster_eq hs hu k, ?_⟩, fun r => ?_, ?_, fun k hk => h.entry_other hs hu hk, h.entry hu, h.reservedTotal hs hu,
    h.bytes⟩
  · exact (h.ending.onward k).missed.trans (h.missed k)
  · rw [closesAtLeave_eq]
    exact h.goes.sendList k nofun
  · split <;> rename_i hr
    · exact h.goes.fate r ((mem_leftAt hs.agrees).2 hr)
    · exact h.goes.record r fun hmem => hr ((mem_leftAt hs.agrees).1 hmem)
  · rw [closesAtLeave_eq]
    exact h.goes.freeList

end

/-- The tables once a member is out of the group, told of it or not (R17, R21). -/
abbrev departed (p q : Port) (g : GroupNo) (s : State) : State := (s.removeMember g q).notifyPort p q

theorem departed_port (p q : Port) (g : GroupNo) (s : State) (k : Port) :
    (departed p q g s).port k = if q = k then Receiving.told (decide (q ≠ p)) (s.port k) else s.port k :=
  notifyPort_port (s.removeMember g q) p q k

/-- The withdrawal of a departed member ends its QUEUED deliveries of the group (R78). -/
theorem departed_departs (p q : Port) (g : GroupNo) {s : State} (hs : Lawful s) (reply : List Byte) :
    Departs q g (fun k => decide (k = q ∧ q ≠ p)) s (departed p q g s)
      (afterTaking p ((departed p q g s).withdrawGroup q g) reply) := by
  obtain ⟨hgroup, hrecord, -, hfree, -⟩ := notifyPort_stores (s.removeMember g q) p q
  have hport := departed_port p q g s
  have htraffic : SameTraffic s (departed p q g s) :=
    (modGroup_sameTraffic s g _).trans (notifyPort_sameTraffic _ p q)
  have hdrains := (Drains.traffic htraffic).trans (withdrawGroup_drains (departed p q g s) q g)
  have hlaw := (SameRoutes.of_traffic htraffic).handleLaw hs.handle
  have hcore : CoreOnly s ((departed p q g s).withdrawGroup q g) :=
    expel_coreOnly p q g s
  obtain ⟨hsame, hgroup', hrecord', -, hfree', hbytes⟩ :=
    afterTaking_sameTables p ((departed p q g s).withdrawGroup q g) reply
  have hrecords : leftAt (departed p q g s) q g = leftAt s q g := by
    have hqueue := htraffic.queue q
    have hof : (departed p q g s).isOfGroup g = s.isOfGroup g := funext fun r => by
      rw [State.isOfGroup, State.isOfGroup, htraffic.message]
    rw [leftAt, leftAt, hqueue, hof]
  refine ⟨?_, fun k hk => ?_, fun k => ?_, fun k => ?_, ?_, ?_, ?_, fun k => ?_, fun a => ?_⟩
  · rw [hgroup, State.removeMember, modGroup_group_same]
  · rw [hgroup, State.removeMember, modGroup_group_ne _ _ _ _ hk.symm]
  · rw [hport]
    split
    · rename_i h; subst h
      simp [Receiving.told]
    · rename_i h
      simp [Ne.symm h]
  · rw [hport]
    split <;> rfl
  · refine (withdrawAll_ending _ none q _).trans (.of_same hgroup' fun k => ?_)
    exact ⟨(SamePort.fields (hsame k)).2.2, (SamePort.lists (hsame k)).2.1⟩
  · have hstart : Goes none q [] s (departed p q g s) := by
      refine .quiet hrecord hfree fun k _ => ?_
      rw [hport]
      split <;> exact ⟨rfl, rfl⟩
    have hmiddle := withdrawAll_goes none q (rs := leftAt (departed p q g s) q g) hlaw
      ((queueRecords_nodup (handleLaw_iff.1 hlaw).1 q).filter _) fun r hr => by
        obtain ⟨m, hm, hqueued, -⟩ := targetIs_iff.1 ((mem_leftAt (handleLaw_iff.1 hlaw).1).1 hr).2
        exact isOpenTarget_iff.2 ⟨m, hm, .inl hqueued⟩
    have hend : Goes none q [] ((departed p q g s).withdrawGroup q g)
        (afterTaking p ((departed p q g s).withdrawGroup q g) reply) :=
      .quiet hrecord' hfree' fun k _ => ⟨(SamePort.fields (hsame k)).1, (SamePort.fields (hsame k)).2.1⟩
    have hall := (hstart.append hmiddle fun _ _ => List.not_mem_nil).append hend nofun
    rwa [List.nil_append, List.append_nil, hrecords] at hall
  · exact .of_drains (hdrains.trans (.traffic (afterTaking_sameTraffic p _ reply)))
  · rw [(SamePort.lists (hsame k)).1, hcore.portState]
  · rw [hbytes, hcore.pool]

/-- The laws are kept by a departure. -/
theorem departed_lawful (p q : Port) {g : GroupNo} (hg : g ≠ 0) {s : State} (hs : Lawful s) (reply : List Byte) :
    Lawful (afterTaking p ((departed p q g s).withdrawGroup q g) reply) := by
  have hturn : Turn (some q) s (afterTaking p ((departed p q g s).withdrawGroup q g) reply) :=
    (((Turn.removeMember s hg q).trans (.notify p (.inl rfl))).trans (withdrawAll_turn _ _ none q _)).trans
      (.same (afterTaking_sameDirectory p _ reply))
  have hdrains := ((Drains.traffic ((modGroup_sameTraffic s g _).trans (notifyPort_sameTraffic _ p q))).trans
    (withdrawGroup_drains (departed p q g s) q g)).trans (.traffic (afterTaking_sameTraffic p _ reply))
  exact ⟨drains_handleLaw hdrains hs.handle, hturn.quotaLaw hs.quota, hturn.groupLaw hs.group⟩

theorem groupNo_ne_zero {g : Byte} (hg : 1 ≤ g.toNat) (hg' : g.toNat < 40) : groupNo g ≠ 0 := fun h => by
  have hval := (groupNo_val hg').symm.trans (congrArg Fin.val h)
  rw [hval] at hg
  cases hg

/-- Settles O34: LEAVE is the departure of the requesting port, which is not told of it. -/
theorem leaveAndExpelWithdrawDeliveries : Obligations.LeaveAndExpelWithdrawDeliveries := by
  intro s p q g port hactive hg hg' hstate
  have hne := groupNo_ne_zero hg hg'
  refine ⟨fun htakes hmember => ?_, fun htakes hnamed hanchor hmember => ?_⟩
  · have hpass : firstFail (leaveChecks p g s) = none := by
      refine passed_of_sameChecks (leaveChecks_same s p g) ?_
      simp only [List.forall_mem_cons, hactive, hstate, hmember, decide_eq_false_iff_not]
      exact ⟨by simp, by omega, by omega, by simp, rfl, by simp⟩
    have hself : departed p p (groupNo g) s = s.removeMember (groupNo g) p := if_pos rfl
    have hsilent : (fun k : Port => decide (k = p ∧ p ≠ p)) = fun _ => false := funext fun k => by simp
    obtain ⟨hanswered, -⟩ := coreOnly_answered (leave_coreOnly p (groupNo g) s) p [0x00]
    refine ⟨_, passes_of_exec (c := execLeave p g) rfl htakes hpass rfl, hanswered, fun hh hq hgl _ => ?_⟩
    have hs : Lawful s := ⟨hh, hq, hgl⟩
    have hdeparts := (departed_departs p p (groupNo g) hs [0x00]).leavesGroup hs (departed_lawful p p hne hs [0x00])
    rwa [hself, hsilent] at hdeparts
  · have hno := portNo_of_val hnamed
    have hpass : firstFail (expelChecks p g port s) = none := by
      refine passed_of_sameChecks (expelChecks_same s p g port) ?_
      simp only [List.forall_mem_cons, hno, hactive, hstate, hanchor, hmember, decide_eq_false_iff_not]
      exact ⟨by simp, by omega, by omega, by omega, by simp, by simp, rfl, by simp⟩
    have hexec := passes_of_exec (c := execExpel p g port) rfl htakes hpass rfl
    rw [hno] at hexec
    obtain ⟨hanswered, -⟩ := coreOnly_answered (expel_coreOnly p q (groupNo g) s) p [0x00]
    refine ⟨_, hexec, hanswered, fun hh hq hgl _ => ?_⟩
    have hs : Lawful s := ⟨hh, hq, hgl⟩
    exact (departed_departs p q (groupNo g) hs [0x00]).leavesGroup hs (departed_lawful p q hne hs [0x00])

end Sys2Proof.Machine.Departing

namespace Sys2Proof.Machine.Departing

open Laws MessagePool Sending Traffic Queues Handles Receiving Expiry Answering SendLists Inactive Directory GroupCommands

/-! ## Step 1 of a retirement: the port is withdrawn from every record (R79, R134) -/

/-- The records that port `p` is an open target of, its queue before its held list. -/
def targetedBy (s : State) (p : Port) : List RecordIndex :=
  ((s.port p).queue.map fun d => d.handle.index) ++ (s.port p).held.map Handle.index

theorem mem_targetedBy {s : State} (hs : Agrees s) {p : Port} {r : RecordIndex} :
    r ∈ targetedBy s p ↔ s.isOpenTarget r p = true := by
  rw [targetedBy, List.mem_append, mem_queueRecords hs, mem_heldRecords hs, isOpenTarget_iff, ← exists_or]
  exact exists_congr fun m => and_or_left.symm

theorem queueRecords_disjoint_heldRecords {s : State} (hs : Agrees s) {p : Port} {r : RecordIndex}
    (hheld : r ∈ (s.port p).held.map Handle.index) : r ∉ (s.port p).queue.map fun d => d.handle.index := by
  intro hqueue
  obtain ⟨m, hm, houtcome⟩ := (mem_heldRecords hs).1 hheld
  obtain ⟨m', hm', houtcome'⟩ := (mem_queueRecords hs).1 hqueue
  cases hm.symm.trans hm'
  cases houtcome.symm.trans houtcome'

/-- The withdrawals from the queue leave the held list for those that follow. -/
theorem retireTargets_goes {s : State} (hs : HandleLaw s) (p : Port) :
    Goes (some p) p (targetedBy s p) s (s.retireTargets p) := by
  have hagrees := (handleLaw_iff.1 hs).1
  have hdrains := withdrawAll_drains s (some p) p ((s.port p).queue.map fun d => d.handle.index)
  have hlaw := drains_handleLaw hdrains hs
  have hagrees' := (handleLaw_iff.1 hlaw).1
  have hqueue := withdrawAll_goes (some p) p hs (queueRecords_nodup hagrees p) fun r hr => by
    obtain ⟨d, hd, rfl⟩ := List.mem_map.1 hr
    exact isOpenTarget_of_queued hagrees hd
  have hsame : ((s.withdrawAll (some p) p ((s.port p).queue.map fun d => d.handle.index)).port p).held =
      (s.port p).held := by
    rw [held_eq_filter hagrees hagrees' ((Subsides.of_drains hdrains).held p) (P := fun _ => true)
      (fun h hh _ => hqueue.keepsTarget (isOpenTarget_of_held hagrees hh) (.inr ?_)) nofun, List.filter_true]
    exact queueRecords_disjoint_heldRecords hagrees (List.mem_map_of_mem hh)
  have hheld := withdrawAll_goes (some p) p hlaw (heldRecords_nodup hagrees' p) fun r hr => by
    obtain ⟨h, hh, rfl⟩ := List.mem_map.1 hr
    exact isOpenTarget_of_held hagrees' hh
  have hall := hqueue.append hheld fun r hr => queueRecords_disjoint_heldRecords hagrees (hsame ▸ hr)
  rw [hsame] at hall
  rw [State.retireTargets, hsame]
  exact hall

theorem retireTargets_ending (s : State) (p : Port) : Ending s (s.retireTargets p) :=
  (withdrawAll_ending s (some p) p _).trans (withdrawAll_ending _ (some p) p _)

/-! ## Steps 2 and 3: the port is out of every group (R25, R135, R136) -/

/-- The entry of a group once its anchor loss, if it has one, is made (R25). -/
def lost (p : Port) (e : Group) : Group := if e.anchor = some p then anchorLost e else e

theorem loseAnchor_group_lost (p : Port) (s : State) (g k : GroupNo) :
    (State.loseAnchor p s g).group k = if k = g then lost p (s.group g) else s.group k := by
  by_cases h : (s.group g).anchor = some p
  · rw [loseAnchor_group h, lost, if_pos h]
  · rw [loseAnchor_of_ne h, lost, if_neg h]
    split
    · rename_i hk; rw [hk]
    · rfl

theorem foldl_loseAnchor_group (p : Port) {gs : List GroupNo} (hnodup : gs.Nodup) (s : State) (k : GroupNo) :
    (gs.foldl (State.loseAnchor p) s).group k = if k ∈ gs then lost p (s.group k) else s.group k := by
  induction gs generalizing s with
  | nil => rfl
  | cons g gs ih =>
    obtain ⟨hg, hrest⟩ := List.nodup_cons.1 hnodup
    rw [List.foldl_cons, ih hrest, loseAnchor_group_lost]
    by_cases hk : k = g
    · subst hk
      rw [if_neg hg, if_pos rfl, if_pos List.mem_cons_self]
    · rw [if_neg hk]
      exact if_congr (by simp [hk]) rfl rfl

/-- What steps 2 and 3 leave of a group's entry. -/
theorem retireGroups_group (s : State) (p : Port) (g : GroupNo) :
    ((s.retireMemberships p).retireAnchorships p).group g =
      lost p { s.group g with members := PortSet.erase (s.group g).members p } := by
  rw [State.retireAnchorships, foldl_loseAnchor_group p (List.nodup_finRange 40), if_pos (List.mem_finRange g),
    retireMemberships_group]

theorem loseAnchor_sends (p : Port) (s : State) (g : GroupNo) (k : Port) :
    ((State.loseAnchor p s g).port k).sends = (s.port k).sends ∧
      ((State.loseAnchor p s g).port k).doneOrder = (s.port k).doneOrder := by
  by_cases h : (s.group g).anchor = some p
  · by_cases hopen : (s.group g).state = .opened
    · rw [loseAnchor_of_opened h hopen, enterClosing_port]
      exact ⟨rfl, rfl⟩
    · rw [loseAnchor_of_not_opened h hopen]
      exact ⟨rfl, rfl⟩
  · rw [loseAnchor_of_ne h]
    exact ⟨rfl, rfl⟩

theorem loseAnchor_goes (o : Option Port) (p q : Port) (s : State) (g : GroupNo) :
    Goes o q [] s (State.loseAnchor p s g) :=
  .quiet (loseAnchor_sameRecords p s g).record (loseAnchor_sameRecords p s g).freeList
    fun k _ => loseAnchor_sends p s g k

theorem retireGroups_goes (o : Option Port) (s : State) (p q : Port) :
    Goes o q [] s ((s.retireMemberships p).retireAnchorships p) := by
  have hmembers : Goes o q [] s (s.retireMemberships p) :=
    .quiet (mapGroups_record s _) (mapGroups_sameRecords s _).freeList fun k _ => by
      rw [State.retireMemberships, mapGroups_port]
      exact ⟨rfl, rfl⟩
  have hanchors : Goes o q [] s ((s.retireMemberships p).retireAnchorships p) :=
    List.foldlRecOn allGroups (State.loseAnchor p) hmembers fun _ ht g _ => ht.append (loseAnchor_goes o p q _ g) nofun
  exact hanchors

theorem retireGroups_onward {p k : Port} (hk : k ≠ p) (s : State) :
    Onward k s ((s.retireMemberships p).retireAnchorships p) := by
  have hmembers : Onward k s (s.retireMemberships p) := by
    refine .of_same (fun g => ?_) (fun g => ?_) ?_ ?_
    · rw [retireMemberships_group]
    · rw [retireMemberships_group, has_erase_of_ne hk]
    · rw [State.retireMemberships, mapGroups_port]
    · rw [State.retireMemberships, mapGroups_port]
  exact hmembers.trans (.foldl (fun t g => loseAnchor_onward hk t g) allGroups _)

/-- The entry of a group that port `p` has left and has ceased to anchor, but for the messages that end with it. -/
def retiredEntry (p : Port) (e : Group) : Group :=
  { e with
    state := if e.state = .opened ∧ e.anchor = some p then .closing else e.state
    anchor := if e.anchor = some p then none else e.anchor
    members := PortSet.erase e.members p }

theorem retiredEntry_closing {p : Port} {e : Group} :
    (retiredEntry p e).state = .closing ↔ e.state = .closing ∨ e.state = .opened ∧ e.anchor = some p := by
  rw [retiredEntry]
  split
  · rename_i h
    exact iff_of_true rfl (.inr h)
  · rename_i h
    exact ⟨.inl, fun hc => hc.resolve_right h⟩

/-- Messages of a group may have ended before steps 2 and 3 reach it. -/
theorem retiredEntry_follows (p : Port) {e e' : Group} (h : EntryFollows e e') :
    EntryFollows (retiredEntry p e) (lost p { e' with members := PortSet.erase e'.members p }) := by
  obtain ⟨hfree, hclosing⟩ | ⟨used, inFlight, rfl⟩ := h
  · refine .inl ⟨?_, retiredEntry_closing.2 (.inl hclosing)⟩
    have hnotOpen : e'.state ≠ .opened := by rw [hfree]; nofun
    rw [lost]
    split
    · rw [anchorLost, if_neg hnotOpen]
      exact hfree
    · exact hfree
  · by_cases hanchor : e.anchor = some p
    · rw [lost, if_pos hanchor, anchorLost]
      by_cases hopen : e.state = .opened
      · rw [if_pos hopen]
        split
        · exact .inl ⟨rfl, retiredEntry_closing.2 (.inr ⟨hopen, hanchor⟩)⟩
        · refine .inr ⟨used, inFlight, ?_⟩
          rw [retiredEntry, if_pos ⟨hopen, hanchor⟩, if_pos hanchor]
      · rw [if_neg hopen]
        refine .inr ⟨used, inFlight, ?_⟩
        rw [retiredEntry, if_neg fun h => hopen h.1, if_pos hanchor]
    · rw [lost, if_neg hanchor]
      refine .inr ⟨used, inFlight, ?_⟩
      rw [retiredEntry, if_neg fun h => hanchor h.2, if_neg hanchor]

/-! ## Step 4: the messages of the port end (R80, R136) -/

/-- The closes of records that port `k` has not sent leave its send list. -/
theorem sendListFollows_same {closed : List RecordIndex} {p k : Port} {s t : State} (h : SendListFollows closed p k s t)
    (hsent : ∀ r ∈ closed, s.sentBy r k = false) :
    (t.port k).sends = (s.port k).sends ∧ (t.port k).doneOrder = (s.port k).doneOrder := by
  obtain ⟨hsends, hdone⟩ := h
  have hentry : s.entryClosed closed p k = some := funext fun e =>
    entryClosed_of_none (List.find?_eq_none.2 fun r hr => by rw [hsent r hr, Bool.false_and]; exact Bool.false_ne_true)
  have htags : s.tagsDone closed k = [] := by
    have hnone : closed.filter (fun r => (s.message r).any fun m => m.sender == k && m.confirm) = [] := by
      refine List.filter_eq_nil_iff.2 fun r hr hany => ?_
      obtain ⟨m, hm, hsender⟩ := (Option.any_eq_true _ _).1 hany
      rw [Bool.and_eq_true] at hsender
      have hnot := hsent r hr
      rw [State.sentBy, hm, Option.any_some, hsender.1] at hnot
      cases hnot
    rw [State.tagsDone, hnone, List.flatMap_nil]
  rw [hsends, hdone, hentry, htags, List.filterMap_some, List.append_nil]
  exact ⟨rfl, rfl⟩

/-- Record `r`, which port `p` sent and which tracks `m` in `s`, has withdrawn some targets in `t` or has closed. -/
structure MessageEnds (p : Port) (r : RecordIndex) (m : Message) (s t : State) : Prop where
  other  : ∀ k, k ≠ r → t.record k = s.record k
  sends  : ∀ k, k ≠ p → (t.port k).sends = (s.port k).sends ∧ (t.port k).doneOrder = (s.port k).doneOrder
  record : (∃ m', t.record r = ⟨(s.record r).generation, some m'⟩ ∧ m'.sender = p ∧ m'.chain = m.chain ∧
      t.freeList = s.freeList) ∨
    (t.record r = ⟨(s.record r).generation + 1, none⟩ ∧ t.freeList = s.freeList ++ m.chain)

theorem MessageEnds.withdraw {p : Port} {r : RecordIndex} {m : Message} {s t : State} (h : MessageEnds p r m s t)
    (ht : HandleLaw t) (q : Port) : MessageEnds p r m s (t.withdraw (some p) r q) := by
  by_cases hopen : t.isOpenTarget r q = true
  · obtain ⟨hother, hfate, hfree, hsends⟩ := withdraw_goes (some p) (handleLaw_iff.1 ht).1 hopen
    obtain ⟨m₁, hm₁, -⟩ := isOpenTarget_iff.1 hopen
    obtain ⟨m', hrecord, hsender, hchain, hfree'⟩ | ⟨hrecord, -⟩ := h.record
    · have hm' : t.message r = some m' := congrArg TransitRecord.message hrecord
      refine ⟨fun k hk => ?_, fun k hk => ?_, ?_⟩
      · rw [hother k fun hmem => hk (List.mem_singleton.1 hmem), h.other k hk]
      · have hsame := sendListFollows_same (hsends k fun heq => hk (Option.some.inj heq).symm) fun j hj => by
          rw [List.mem_singleton.1 (List.mem_of_mem_filter hj), State.sentBy, hm', Option.any_some, hsender]
          exact beq_eq_false_iff_ne.2 hk.symm
        exact ⟨hsame.1.trans (h.sends k hk).1, hsame.2.trans (h.sends k hk).2⟩
      · have hafter := hfate r (List.mem_singleton.2 rfl) m' hm'
        rw [List.filter_singleton, lastOpen_of_message hm'] at hfree
        rw [hrecord] at hafter
        cases hlast : (m'.withOutcome q .withdrawn 0).hasOpenTarget with
        | true =>
          rw [hlast, if_pos rfl] at hafter
          rw [hlast] at hfree
          exact .inl ⟨_, hafter, hsender, hchain, hfree.trans ((List.append_nil _).trans hfree')⟩
        | false =>
          rw [hlast, if_neg Bool.false_ne_true] at hafter
          rw [hlast] at hfree
          refine .inr ⟨hafter, hfree.trans ?_⟩
          rw [hfree', Bool.not_false, cond_true, List.flatMap_singleton, chainOf_of_message hm', hchain]
    · have hnone : t.message r = none := congrArg TransitRecord.message hrecord
      cases hnone.symm.trans hm₁
  · rw [State.withdraw, if_neg hopen]
    exact h

/-- Port `p` has ended these messages of its own, in their order. -/
structure Ended (p : Port) (rs : List RecordIndex) (s t : State) : Prop where
  record   : ∀ r, t.record r = if r ∈ rs then ⟨(s.record r).generation + 1, none⟩ else s.record r
  freeList : t.freeList = s.freeList ++ rs.flatMap s.chainOf
  sends    : ∀ k, k ≠ p → (t.port k).sends = (s.port k).sends ∧ (t.port k).doneOrder = (s.port k).doneOrder

/-- Since an IN_TRANSIT record has an open target, a message ends with its last withdrawal (R80, R91). -/
theorem endMessage_ended {p : Port} {s : State} (hs : HandleLaw s) {r : RecordIndex} (hsent : s.sentBy r p = true) :
    Ended p [r] s (State.endMessage p s r) := by
  obtain ⟨m, hm, hsender⟩ := (Option.any_eq_true _ _).1 hsent
  have hstart : HandleLaw s ∧ MessageEnds p r m s s :=
    ⟨hs, fun _ _ => rfl, fun _ _ => ⟨rfl, rfl⟩, .inl ⟨m, by rw [← hm]; rfl, eq_of_beq hsender, rfl, rfl⟩⟩
  have hends : HandleLaw (allPorts.foldl (fun t q => t.withdraw (some p) r q) s) ∧
      MessageEnds p r m s (allPorts.foldl (fun t q => t.withdraw (some p) r q) s) :=
    List.foldlRecOn (motive := fun t => HandleLaw t ∧ MessageEnds p r m s t) allPorts _ hstart fun t ht q _ =>
      ⟨drains_handleLaw (.withdraw t (some p) r q) ht.1, ht.2.withdraw ht.1 q⟩
  have hend : State.endMessage p s r = allPorts.foldl (fun t q => t.withdraw (some p) r q) s := if_pos hsent
  have hgone := endMessage_sentBy hs p r
  rw [hend] at hgone ⊢
  obtain ⟨hother, hsends, ⟨m', hrecord, hsender', -, -⟩ | ⟨hrecord, hfree⟩⟩ := hends.2
  · rw [State.sentBy, State.message, hrecord, Option.any_some, hsender', beq_self_eq_true] at hgone
    cases hgone
  · refine ⟨fun k => ?_, ?_, hsends⟩
    · split
      · rename_i hk
        rw [List.mem_singleton.1 hk, hrecord]
      · rename_i hk
        exact hother k fun h => hk (List.mem_singleton.2 h)
    · rw [hfree, List.flatMap_singleton, chainOf_of_message hm]

theorem foldl_endMessage_ended (p : Port) {rs : List RecordIndex} (hnodup : rs.Nodup) {s : State} (hs : HandleLaw s) :
    Ended p (rs.filter fun r => s.sentBy r p) s (rs.foldl (State.endMessage p) s) := by
  induction rs generalizing s with
  | nil => exact ⟨fun _ => rfl, (List.append_nil _).symm, fun _ _ => ⟨rfl, rfl⟩⟩
  | cons r rs ih =>
    obtain ⟨hr, hrest⟩ := List.nodup_cons.1 hnodup
    have hall := ih hrest (drains_handleLaw (endMessage_drains p s r) hs)
    cases hsent : s.sentBy r p with
    | false =>
      have hsame : State.endMessage p s r = s := if_neg (by rw [← State.sentBy, hsent]; exact Bool.false_ne_true)
      rw [hsame] at hall
      rw [List.foldl_cons, hsame, List.filter_cons_of_neg (by rw [hsent]; exact Bool.false_ne_true)]
      exact hall
    | true =>
      obtain ⟨hrecord, hfree, hsends⟩ := endMessage_ended hs hsent
      obtain ⟨hrecord', hfree', hsends'⟩ := hall
      have hother (k : RecordIndex) (hk : k ∈ rs) : (State.endMessage p s r).record k = s.record k := by
        rw [hrecord, if_neg fun h : k ∈ [r] => hr (List.mem_singleton.1 h ▸ hk)]
      have hlist : rs.filter (fun k => (State.endMessage p s r).sentBy k p) = rs.filter fun k => s.sentBy k p :=
        List.filter_congr fun k hk => by rw [State.sentBy, State.sentBy, State.message, State.message, hother k hk]
      rw [hlist] at hrecord' hfree'
      rw [List.foldl_cons, List.filter_cons_of_pos (p := fun k => s.sentBy k p) hsent]
      refine ⟨fun k => ?_, ?_, fun k hk => ?_⟩
      · rw [hrecord', hrecord]
        by_cases hk : k = r
        · subst hk
          rw [if_neg fun h => hr (List.mem_of_mem_filter h), if_pos (List.mem_singleton.2 rfl),
            if_pos List.mem_cons_self]
        · rw [if_neg fun h => hk (List.mem_singleton.1 h)]
          exact if_congr (by simp [hk]) rfl rfl
      · have hchains : (rs.filter fun k => s.sentBy k p).flatMap (State.endMessage p s r).chainOf =
            (rs.filter fun k => s.sentBy k p).flatMap s.chainOf := List.flatMap_congr fun k hk => by
          rw [State.chainOf, State.chainOf, State.message, State.message, hother k (List.mem_of_mem_filter hk)]
        rw [hfree', hfree, hchains, List.flatMap_singleton, List.flatMap_cons, List.append_assoc]
      · exact ⟨(hsends' k hk).1.trans (hsends k hk).1, (hsends' k hk).2.trans (hsends k hk).2⟩

end Sys2Proof.Machine.Departing

namespace Sys2Proof.Machine.Departing

open Laws MessagePool Sending Traffic Queues Handles Receiving Expiry Answering SendLists Inactive Directory GroupCommands

/-! ## Retirement as a whole (R133 to R138) -/

/-- The records that close at the withdrawal of port `p` as their target, in order. -/
abbrev closedAsTarget (s : State) (p : Port) : List RecordIndex := (targetedBy s p).filter (s.lastOpen p)

/-- Of a record that is still IN_TRANSIT, the withdrawal of a target has left sender, chain and generation. -/
theorem Goes.message {o : Option Port} {p : Port} {rs : List RecordIndex} {s t : State} (h : Goes o p rs s t)
    (hrs : ∀ r ∈ rs, s.isOpenTarget r p = true) {r : RecordIndex} {m' : Message} (hm' : t.message r = some m') :
    ∃ m, s.message r = some m ∧ m'.sender = m.sender ∧ m'.chain = m.chain ∧
      (t.record r).generation = (s.record r).generation ∧ r ∉ rs.filter (s.lastOpen p) := by
  by_cases hr : r ∈ rs
  · obtain ⟨m, hm, -⟩ := isOpenTarget_iff.1 (hrs r hr)
    have hrecord := h.fate r hr m hm
    rw [State.message, hrecord] at hm'
    cases hlast : (m.withOutcome p .withdrawn 0).hasOpenTarget with
    | true =>
      rw [hlast, if_pos rfl] at hm' hrecord
      cases hm'
      refine ⟨m, hm, rfl, rfl, by rw [hrecord], fun hmem => ?_⟩
      have hclosed := (List.mem_filter.1 hmem).2
      rw [lastOpen_of_message hm, hlast] at hclosed
      cases hclosed
    | false =>
      rw [hlast, if_neg Bool.false_ne_true] at hm'
      cases hm'
  · have hrecord := h.record r hr
    rw [State.message, hrecord] at hm'
    exact ⟨m', hm', rfl, rfl, by rw [hrecord], fun hmem => hr (List.mem_of_mem_filter hmem)⟩

/-- Closes of records that port `k` has not sent may follow. -/
theorem sendListFollows_extend {closed others : List RecordIndex} {p k : Port} {s t : State}
    (h : SendListFollows closed p k s t) (hsent : ∀ r ∈ others, s.sentBy r k = false) :
    SendListFollows (closed ++ others) p k s t := by
  obtain ⟨hsends, hdone⟩ := h
  have hentry : s.entryClosed (closed ++ others) p k = s.entryClosed closed p k := funext fun e => by
    have hnone : s.entryClosed others p k = some := funext fun e' =>
      entryClosed_of_none (List.find?_eq_none.2 fun r hr => by
        rw [hsent r hr, Bool.false_and]; exact Bool.false_ne_true)
    rw [entryClosed_append p k (t := s) (fun _ _ => rfl), hnone, Option.bind_fun_some]
  have htags : s.tagsDone (closed ++ others) k = s.tagsDone closed k := by
    have hnone : others.filter (fun r => (s.message r).any fun m => m.sender == k && m.confirm) = [] := by
      refine List.filter_eq_nil_iff.2 fun r hr hany => ?_
      obtain ⟨m, hm, hsender⟩ := (Option.any_eq_true _ _).1 hany
      rw [Bool.and_eq_true] at hsender
      have hnot := hsent r hr
      rw [State.sentBy, hm, Option.any_some, hsender.1] at hnot
      cases hnot
    rw [State.tagsDone, State.tagsDone, List.filter_append, hnone, List.append_nil]
  exact ⟨by rw [hsends, hentry], by rw [hdone, htags]⟩

theorem losesAnchor_iff {s : State} {p : Port} (g : GroupNo) :
    s.losesAnchor p g = true ↔ (s.group g).state = .opened ∧ (s.group g).anchor = some p := by
  rw [State.losesAnchor, Bool.and_eq_true, beq_iff_eq, beq_iff_eq]

theorem retire_onward (s : State) (p : Port) (final : PortState) {k : Port} (hk : k ≠ p) : Onward k s (s.retire p final) := by
  have hlast : Onward k ((withdrawnState s p).retireMessages p) (s.retire p final) := by
    refine .of_same (fun g => ?_) (fun g => ?_) ?_ ?_
    · rw [retire_group]
    · rw [retire_group]
    · rw [retire_port, if_neg hk.symm]
    · rw [retire_port, if_neg hk.symm]
  exact ((((retireTargets_ending s p).onward k).trans (retireGroups_onward hk _)).trans
    ((retireMessages_ending _ p).onward k)).trans hlast

section

variable {s : State} (hs : Lawful s) (p : Port) (final : PortState)

include hs

theorem retire_lawful : Lawful (s.retire p final) :=
  ⟨drains_handleLaw (retire_drains s p final) hs.handle, (retire_turn s p final).quotaLaw hs.quota,
    (retire_turn s p final).groupLaw hs.group⟩

/-- Steps 1 to 3. -/
theorem withdrawnState_goes : Goes (some p) p (targetedBy s p) s (withdrawnState s p) := by
  have hall := (retireTargets_goes hs.handle p).append (retireGroups_goes (some p) (s.retireTargets p) p p) nofun
  rwa [List.append_nil] at hall

theorem withdrawnState_ended :
    Ended p (allRecords.filter fun r => (withdrawnState s p).sentBy r p) (withdrawnState s p)
      ((withdrawnState s p).retireMessages p) :=
  foldl_endMessage_ended p (List.nodup_finRange 24) (withdrawnState_handleLaw hs.handle p)

/-- What is left to end at step 4 are the messages that the port sent and that have not closed with it as target. -/
theorem withdrawnState_sentBy (r : RecordIndex) :
    (withdrawnState s p).sentBy r p = (s.sentBy r p && decide (r ∉ closedAsTarget s p)) := by
  have hgoes := withdrawnState_goes hs p
  have hopen (k : RecordIndex) (hk : k ∈ targetedBy s p) := (mem_targetedBy hs.agrees).1 hk
  rw [Bool.eq_iff_iff, Bool.and_eq_true, decide_eq_true_iff]
  constructor
  · intro hsent
    obtain ⟨m', hm', hsender⟩ := (Option.any_eq_true _ _).1 hsent
    obtain ⟨m, hm, hsame, -, -, hstays⟩ := hgoes.message hopen hm'
    exact ⟨(Option.any_eq_true _ _).2 ⟨m, hm, hsame ▸ hsender⟩, hstays⟩
  · rintro ⟨hsent, hstays⟩
    obtain ⟨m, hm, hsender⟩ := (Option.any_eq_true _ _).1 hsent
    by_cases hr : r ∈ targetedBy s p
    · have hlast : (m.withOutcome p .withdrawn 0).hasOpenTarget = true := by
        by_contra hlast
        refine hstays (List.mem_filter.2 ⟨hr, ?_⟩)
        rw [lastOpen_of_message hm, Bool.not_eq_true] at *
        rw [hlast]
        rfl
      rw [State.sentBy, State.message, hgoes.fate r hr m hm, if_pos hlast]
      exact hsender
    · rw [State.sentBy, State.message, hgoes.record r hr]
      exact hsent

theorem closesOf_eq :
    s.closesOf p = closedAsTarget s p ++ allRecords.filter fun r => (withdrawnState s p).sentBy r p := by
  have hrest : allRecords.filter (fun r => (withdrawnState s p).sentBy r p) =
      allRecords.filter fun r => s.sentBy r p && decide (r ∉ closedAsTarget s p) :=
    List.filter_congr fun r _ => withdrawnState_sentBy hs p r
  rw [hrest]
  rfl

theorem retire_record (r : RecordIndex) :
    (s.retire p final).record r =
      if (withdrawnState s p).sentBy r p = true then
        ⟨((withdrawnState s p).record r).generation + 1, none⟩
      else (withdrawnState s p).record r := by
  rw [State.retire, State.setPortState, modPort_record, State.retireSends, modPort_record,
    (withdrawnState_ended hs p).record]
  exact if_congr (by rw [List.mem_filter]; exact and_iff_right (List.mem_finRange r)) rfl rfl

/-- A message of the port has ended, as its target or after (R80). -/
theorem retire_record_sent {r : RecordIndex} (hsent : s.sentBy r p = true) :
    (s.retire p final).record r = ⟨(s.record r).generation + 1, none⟩ := by
  have hgoes := withdrawnState_goes hs p
  rw [retire_record hs p final]
  split
  · rename_i hleft
    obtain ⟨m', hm', -⟩ := (Option.any_eq_true _ _).1 hleft
    obtain ⟨-, -, -, -, hgeneration, -⟩ :=
      hgoes.message (fun k hk => (mem_targetedBy hs.agrees).1 hk) hm'
    rw [hgeneration]
  · rename_i hended
    have hclosed : r ∈ closedAsTarget s p := by
      by_contra hstays
      exact hended (by rw [withdrawnState_sentBy hs p, hsent, decide_eq_true hstays]; rfl)
    obtain ⟨hr, hlast⟩ := List.mem_filter.1 hclosed
    obtain ⟨m, hm, -⟩ := (Option.any_eq_true _ _).1 hsent
    rw [lastOpen_of_message hm, Bool.not_eq_true'] at hlast
    rw [hgoes.fate r hr m hm, if_neg (by rw [hlast]; exact Bool.false_ne_true)]

/-- Every other record goes on as steps 1 to 3 leave it. -/
theorem retire_record_notSent {r : RecordIndex} (hsent : s.sentBy r p = false) :
    (s.retire p final).record r = (withdrawnState s p).record r := by
  rw [retire_record hs p final, if_neg (by rw [withdrawnState_sentBy hs p, hsent]; exact Bool.false_ne_true)]

theorem retire_freeList :
    (s.retire p final).freeList = s.freeList ++ (s.closesOf p).flatMap s.chainOf := by
  have hgoes := withdrawnState_goes hs p
  have hfree : (s.retire p final).freeList = ((withdrawnState s p).retireMessages p).freeList := by
    rw [State.retire, State.setPortState, modPort_freeList, State.retireSends, modPort_freeList]
  have hchains : (allRecords.filter fun r => (withdrawnState s p).sentBy r p).flatMap (withdrawnState s p).chainOf =
      (allRecords.filter fun r => (withdrawnState s p).sentBy r p).flatMap s.chainOf :=
    List.flatMap_congr fun r hr => by
      obtain ⟨m', hm', -⟩ := (Option.any_eq_true _ _).1 (List.mem_filter.1 hr).2
      obtain ⟨m, hm, -, hchain, -⟩ := hgoes.message (fun k hk => (mem_targetedBy hs.agrees).1 hk) hm'
      rw [chainOf_of_message hm', chainOf_of_message hm, hchain]
  rw [hfree, (withdrawnState_ended hs p).freeList, hgoes.freeList, hchains, closesOf_eq hs p, List.flatMap_append,
    List.append_assoc]

theorem retire_entry (g : GroupNo) : (s.retire p final).group g = s.groupRetired (s.retire p final) p g := by
  have hfollows : EntryFollows (retiredEntry p (s.group g)) ((s.retire p final).group g) := by
    have hgroups := retiredEntry_follows p ((retireTargets_ending s p).entry g)
    rw [← retireGroups_group] at hgroups
    rw [retire_group]
    exact hgroups.trans ((retireMessages_ending (withdrawnState s p) p).entry g)
  rw [entry_of_follows (retire_lawful hs p final) hfollows, State.groupRetired]
  refine if_congr (and_congr_left fun _ => ?_) rfl ?_
  · rw [retiredEntry_closing, losesAnchor_iff g]
  · simp only [retiredEntry, losesAnchor_iff g]

/-- The state of a group changes where it loses its anchor, or is CLOSING and becomes FREE. -/
theorem retire_changes (g : GroupNo) :
    decide ((s.group g).state ≠ ((s.retire p final).group g).state) =
      (s.losesAnchor p g || ((s.group g).state == .closing && ((s.retire p final).group g).state == .free)) := by
  rw [retire_entry hs p final g, State.groupRetired]
  cases hloses : s.losesAnchor p g with
  | true =>
    have hopen := ((losesAnchor_iff g).1 hloses).1
    split
    · simp [hopen, Group.freed]
    · simp [hopen]
  | false =>
    split
    · rename_i h
      have hclosing := h.1.resolve_right Bool.false_ne_true
      simp [hclosing, Group.freed]
    · cases hstate : (s.group g).state <;> simp

theorem retire_hears (k : Port) : hears k s (s.retire p final) = s.rosterTold (s.retire p final) p k := by
  rw [hears, State.rosterTold]
  refine congrArg (List.any allGroups) (funext fun g => ?_)
  rw [retire_changes hs p final g]

/-- The quotas of the groups that are FREE afterwards are released (R2, R5). -/
theorem retire_reservedTotal :
    (s.retire p final).reservedTotal = s.reservedTotal -
      ((allGroups.filter fun g => ((s.retire p final).group g).state == .free).map fun g => (s.group g).quota).sum := by
  have hlaw := retire_lawful hs p final
  have hquota (g : GroupNo) : ((s.retire p final).group g).quota =
      if ((s.retire p final).group g).state == .free then 0 else (s.group g).quota := by
    by_cases hfree : ((s.retire p final).group g).state = .free
    · rw [if_pos (beq_iff_eq.2 hfree), (hlaw.balanced g).free hfree]
    · rw [if_neg (mt beq_iff_eq.1 hfree)]
      rw [retire_entry hs p final g, State.groupRetired] at hfree ⊢
      split at hfree
      · exact absurd rfl hfree
      · rename_i hstays
        rw [if_neg hstays]
  have hsplit (gs : List GroupNo) : (gs.map fun g => (s.group g).quota).sum =
      (gs.map fun g => ((s.retire p final).group g).quota).sum +
        ((gs.filter fun g => ((s.retire p final).group g).state == .free).map fun g => (s.group g).quota).sum := by
    induction gs with
    | nil => rfl
    | cons g gs ih =>
      rw [List.map_cons, List.map_cons, List.sum_cons, List.sum_cons, ih, hquota, List.filter_cons]
      split
      · rw [List.map_cons, List.sum_cons]; omega
      · omega
  rw [hs.quota.1, hlaw.quota.1, hsplit allGroups, Nat.add_sub_cancel_right]

/-- What a retirement leaves of a record that another port is a target of. -/
theorem retire_keepsTarget {k : Port} (hk : k ≠ p) {r : RecordIndex} (hopen : s.isOpenTarget r k = true)
    (hsent : s.sentBy r p = false) : KeepsTarget k r s (s.retire p final) := by
  have hkeeps := (withdrawnState_goes hs p).keepsTarget hopen (.inl hk)
  have hrecord := retire_record_notSent hs p final hsent
  obtain ⟨hhandle, hmessage⟩ := hkeeps
  have hsame : (s.retire p final).message r = (withdrawnState s p).message r := by
    rw [State.message, State.message, hrecord]
  refine ⟨?_, fun m hm => ?_⟩
  · rw [← hhandle, State.handle, State.handle, hrecord]
  · obtain ⟨m', hm', hkept⟩ := hmessage m hm
    exact ⟨m', hsame.trans hm', hkept⟩

theorem retire_not_isOpenTarget {r : RecordIndex} (hsent : s.sentBy r p = true) (k : Port) :
    (s.retire p final).isOpenTarget r k = false := by
  rw [State.isOpenTarget, State.message, retire_record_sent hs p final hsent]
  rfl

theorem retire_sendList {k : Port} (hk : k ≠ p) : SendListFollows (s.closesOf p) p k s (s.retire p final) := by
  have hport := retire_port s p final k
  rw [if_neg hk.symm] at hport
  obtain ⟨hsends, hdone⟩ := (withdrawnState_ended hs p).sends k hk
  obtain ⟨hfollows, hfollows'⟩ := (withdrawnState_goes hs p).sendList k fun h => hk (Option.some.inj h).symm
  rw [closesOf_eq hs p]
  refine sendListFollows_extend ⟨?_, ?_⟩ fun r hr => ?_
  · rw [hport, hsends, hfollows]
  · rw [hport, hdone, hfollows']
  · have hsent := (List.mem_filter.1 hr).2
    rw [withdrawnState_sentBy hs p, Bool.and_eq_true] at hsent
    obtain ⟨m, hm, hsender⟩ := (Option.any_eq_true _ _).1 hsent.1
    rw [State.sentBy, hm, Option.any_some, eq_of_beq hsender]
    exact beq_eq_false_iff_ne.2 hk.symm

theorem retire_otherPort {q : Port} (hq : q ≠ p) : OtherPortRetired p q s (s.retire p final) := by
  have hlists := Subsides.of_drains (retire_drains s p final)
  have honward := retire_onward s p final hq
  have hagrees := (retire_lawful hs p final).agrees
  refine ⟨?_, ?_, ⟨?_, honward.missed⟩, ?_, retire_sendList hs p final hq⟩
  · refine queue_eq_filter hs.agrees hagrees (hlists.queue q) (P := fun r => !s.sentBy r p) (fun d hd hP => ?_)
      fun d _ hP => retire_not_isOpenTarget hs p final (by simpa using hP) q
    exact retire_keepsTarget hs p final hq (isOpenTarget_of_queued hs.agrees hd) (by simpa using hP)
  · refine held_eq_filter hs.agrees hagrees (hlists.held q) (P := fun r => !s.sentBy r p) (fun h hh hP => ?_)
      fun h _ hP => retire_not_isOpenTarget hs p final (by simpa using hP) q
    exact retire_keepsTarget hs p final hq (isOpenTarget_of_held hs.agrees hh) (by simpa using hP)
  · rw [retire_portState, if_neg hq.symm]
  · rw [honward.roster, retire_hears hs p final]

/-- The six steps of a retirement leave what the chapter says (07 section 7.4). -/
theorem retire_retired : Retired p final s (s.retire p final) := by
  have hstation : OpenStation s := ⟨hs.group.1.1, hs.group.1.2.1⟩
  obtain ⟨⟨hqueue, hheld, hsends, hdone, hmissed, hroster⟩, houtside, -, -⟩ :=
    retire_noPart hs.handle hstation p final
  have hstate : ((s.retire p final).port p).portState = final := by rw [retire_portState, if_pos rfl]
  refine ⟨⟨hstate, hqueue, hheld, hsends, hdone, hmissed, hroster⟩, fun g => ⟨(houtside g).member, (houtside g).anchor⟩,
    fun r => ?_, retire_freeList hs p final, retire_entry hs p final, retire_reservedTotal hs p final,
    fun q hq => retire_otherPort hs p final hq, fun a => ?_⟩
  · split
    · rename_i hsent
      exact retire_record_sent hs p final hsent
    · rename_i hsent
      have hrecord := retire_record_notSent hs p final (Bool.eq_false_iff.2 hsent)
      have hgoes := withdrawnState_goes hs p
      split
      · rename_i hopen
        intro m hm
        rw [hrecord]
        exact hgoes.fate r ((mem_targetedBy hs.agrees).2 hopen) m hm
      · rename_i hopen
        rw [hrecord]
        exact hgoes.record r (mt (mem_targetedBy hs.agrees).1 hopen)
  · rw [retire_pool]

end

end Sys2Proof.Machine.Departing

namespace Sys2Proof.Machine.Departing

open Laws MessagePool Sending Traffic Queues Handles Receiving Expiry Answering SendLists Inactive Directory GroupCommands Takings

/-! ## DETACH -/

/-- Records that are the same charge each group the same. -/
theorem charges_of_sameRecords {s t : State} (h : ∀ r, t.record r = s.record r) (g : GroupNo) :
    t.blocksOf g = s.blocksOf g ∧ t.flightsOf g = s.flightsOf g := by
  have hmessage (r : RecordIndex) : t.message r = s.message r := congrArg TransitRecord.message (h r)
  have hof : t.isOfGroup g = s.isOfGroup g := funext fun r => by rw [State.isOfGroup, State.isOfGroup, hmessage]
  have hchain : t.chainOf = s.chainOf := funext fun r => by rw [State.chainOf, State.chainOf, hmessage]
  rw [State.blocksOf, State.blocksOf, State.flightsOf, State.flightsOf, hof, hchain]
  exact ⟨rfl, rfl⟩

/-- What follows a retirement and changes no table keeps what it left. -/
theorem retired_of_sameTables {p : Port} {final : PortState} {s t u : State} (h : Retired p final s t)
    (k : SameTables t u) : Retired p final s u := by
  obtain ⟨⟨hstate, hqueue, hheld, hsends, hdone, hmissed, hroster⟩, houtside, hfate, hfree, hentry, hreserved, hports,
    hbytes⟩ := h
  obtain ⟨hport, hgroup, hrecord, hreserved', hfree', hbytes'⟩ := k
  have hretired (g : GroupNo) : s.groupRetired u p g = s.groupRetired t p g := by
    obtain ⟨hblocks, hflights⟩ := charges_of_sameRecords hrecord g
    simp only [State.groupRetired, hblocks, hflights]
  have htold (q : Port) : s.rosterTold u p q = s.rosterTold t p q := by simp only [State.rosterTold, hgroup]
  refine ⟨?_, fun g => ?_, fun r => ?_, hfree'.trans hfree, fun g => ?_, ?_, fun q hq => ?_, fun a => ?_⟩
  · obtain ⟨hstate', hmissed', hqueue', hheld'⟩ := SamePort.lists (hport p)
    obtain ⟨hsends', hdone', hroster'⟩ := SamePort.fields (hport p)
    exact ⟨hstate'.trans hstate, hqueue'.trans hqueue, hheld'.trans hheld, hsends'.trans hsends, hdone'.trans hdone,
      hmissed'.trans hmissed, hroster'.trans hroster⟩
  · rw [hgroup]
    exact houtside g
  · simp only [Withdrawn, hrecord]
    exact hfate r
  · rw [hgroup, hretired]
    exact hentry g
  · simp only [hgroup]
    exact hreserved'.trans hreserved
  · obtain ⟨hstate', hmissed', hqueue', hheld'⟩ := SamePort.lists (hport q)
    obtain ⟨hsends', hdone', hroster'⟩ := SamePort.fields (hport q)
    obtain ⟨hqueue, hheld, ⟨hstate, hmissed⟩, hroster, hsends, hdone⟩ := hports q hq
    exact ⟨hqueue'.trans hqueue, hheld'.trans hheld, ⟨hstate'.trans hstate, hmissed'.trans hmissed⟩,
      by rw [hroster', hroster, htold], hsends'.trans hsends, hdone'.trans hdone⟩
  · exact (hbytes' a).trans (hbytes a)

/-- Settles O28: DETACH is the retirement of its port, and the answer changes no table. -/
theorem detachRetiresPort : Obligations.DetachRetiresPort := by
  intro s p htakes hactive
  have hpass : firstFail [(s.notActive p, ResultCode.notAttached)] = none :=
    passed_of_sameChecks (notAttached_same s p) (by simp [hactive])
  have hbeside := retire_besideTables s p .detached
  refine ⟨_, passes_of_exec (c := execDetach p) rfl htakes hpass rfl,
    answeredFrom_afterTaking (hbeside.pfe p) (fun q _ => hbeside.pfe q) hbeside.tickCount hbeside.pending,
    fun hh hq hg _ => ?_⟩
  exact retired_of_sameTables (retire_retired ⟨hh, hq, hg⟩ p .detached) (afterTaking_sameTables p _ [0x00])

/-! ## PRESENCE_REPORT -/

/-- Where the port is not retired, the table of R128 gives its state alone. -/
theorem presenceEffect_tables {p : Port} {lostSeen present : Bool} {s : State}
    (h : ¬(lostSeen = true ∧ (s.port p).portState = .active)) :
    ((presenceEffect p lostSeen present s).port p = { s.port p with
        portState := if lostSeen = true ∨ (present = true ∧ (s.port p).portState = .absent) then levelState present
          else (s.port p).portState }) ∧
      (∀ q, q ≠ p → (presenceEffect p lostSeen present s).port q = s.port q) ∧
      SameStores s (presenceEffect p lostSeen present s) := by
  have hset (st : PortState) : (s.setPortState p st).port p = { s.port p with portState := st } ∧
      (∀ q, q ≠ p → (s.setPortState p st).port q = s.port q) ∧ SameStores s (s.setPortState p st) := by
    refine ⟨?_, fun q hq => ?_, fun _ => rfl, fun _ => rfl, rfl, rfl, fun _ => rfl⟩
    · rw [State.setPortState, modPort_port_same]
    · rw [State.setPortState, modPort_port_ne _ _ _ _ hq.symm]
  cases lostSeen with
  | true =>
    rw [presenceEffect, if_pos rfl, if_neg fun hactive => h ⟨rfl, hactive⟩, if_pos (.inl rfl)]
    exact hset (levelState present)
  | false =>
    by_cases habsent : present = true ∧ (s.port p).portState = .absent
    · obtain ⟨rfl, hstate⟩ := habsent
      rw [presenceEffect, if_neg Bool.false_ne_true, hstate, if_pos (c := (true && PortState.absent == .absent) = true) rfl,
        if_pos (.inr ⟨rfl, rfl⟩)]
      exact hset .detached
    · have hsame : presenceEffect p false present s = s := by
        rw [presenceEffect, if_neg Bool.false_ne_true, if_neg]
        rwa [Bool.and_eq_true, beq_iff_eq]
      rw [hsame, if_neg fun hany => habsent (hany.resolve_left Bool.false_ne_true)]
      exact ⟨rfl, fun _ _ => rfl, fun _ => rfl, fun _ => rfl, rfl, rfl, fun _ => rfl⟩

/-- The end of a taking changes no table. -/
theorem granted_refresh_sameTables (t : State) (slot : Slot) : SameTables t (t.granted slot).refresh :=
  refresh_sameTables (t.granted slot)

theorem presenceTaken_pending (p : Port) (s : State) : (presenceTaken p s).pending = s.pending := by
  rw [presenceTaken, refresh_pending, State.granted, setArbiter_pending, (presenceEffect_besideTables _ _ _ _).pending,
    modPfe_pending]

/-- A PFE after the taking of a presence slot: ATNn follows the summary that the taking publishes. -/
theorem presenceTaken_pfe (p : Port) (s : State) (q : Port) :
    (presenceTaken p s).pfe q =
      ((s.modPfe p Pfe.takePresence).pfe q).driveAtn ((presenceTaken p s).port q).summary := by
  have hbeside := presenceEffect_besideTables p (s.pfe p).presence.lostSeen (s.pfe p).presence.level
    (s.modPfe p Pfe.takePresence)
  rw [presenceTaken, refresh_pfe, refresh_port, State.granted, setArbiter_pfe, hbeside.pfe]

/-- The laws do not read the PFEs. -/
theorem modPfe_lawful {s : State} (hs : Lawful s) (p : Port) (f : Pfe → Pfe) : Lawful (s.modPfe p f) :=
  have hturn : Turn none s (s.modPfe p f) := .same (modPfe_sameDirectory s p f)
  ⟨(SameRoutes.of_traffic (modPfe_sameTraffic s p f)).handleLaw hs.handle, hturn.quotaLaw hs.quota,
    hturn.groupLaw hs.group⟩

/-- Settles O29, by the cases of the table of R128. -/
theorem presenceReportFollowsTable : Obligations.PresenceReportFollowsTable := by
  intro s p hgrant
  obtain ⟨-, htick, hdone, hring⟩ := presenceTaken_frame p s
  refine ⟨_, exec_presenceReport hgrant, ?_, ?_, fun q hq => ?_, Publishing.refresh_published _, htick, hring, hdone,
    presenceTaken_pending p s⟩
  · have hend := granted_refresh_sameTables (presenceEffect p (s.pfe p).presence.lostSeen (s.pfe p).presence.level
      (s.modPfe p Pfe.takePresence)) (.presence p)
    split
    · rename_i hlost
      obtain ⟨hseen, hactive⟩ := hlost
      intro hh hq hg _
      have heffect : presenceEffect p (s.pfe p).presence.lostSeen (s.pfe p).presence.level
          (s.modPfe p Pfe.takePresence) =
            (s.modPfe p Pfe.takePresence).retire p (levelState (s.pfe p).presence.level) := by
        rw [presenceEffect, if_pos hseen, modPfe_port, if_pos hactive]
      rw [heffect] at hend
      rw [presenceTaken, heffect]
      exact retired_of_sameTables
        (retire_retired (modPfe_lawful ⟨hh, hq, hg⟩ p Pfe.takePresence) p (levelState (s.pfe p).presence.level)) hend
    · rename_i hlost
      obtain ⟨hport, hother, hgroup, hrecord, hreserved, hfree, hbytes⟩ :=
        presenceEffect_tables (present := (s.pfe p).presence.level) (s := s.modPfe p Pfe.takePresence) hlost
      obtain ⟨hsame, hgroup', hrecord', hreserved', hfree', hbytes'⟩ := hend
      refine ⟨?_, fun q hq => ?_, fun g => (hgroup' g).trans (hgroup g), fun r => (hrecord' r).trans (hrecord r),
        hreserved'.trans hreserved, hfree'.trans hfree, fun a => (hbytes' a).trans (hbytes a)⟩
      · rw [presenceTaken, refresh_port, State.granted, setArbiter_port, hport]
        rfl
      · rw [SamePort, presenceTaken, refresh_port, State.granted, setArbiter_port, hother q hq]
        rfl
  · rw [presenceTaken_pfe, modPfe_pfe_same]
    rfl
  · rw [AttentionOnly, presenceTaken_pfe, modPfe_pfe_ne _ _ _ _ hq.symm]
    rfl

end Sys2Proof.Machine.Departing
